-- ==== Sys2Proof/Word.lean ====
section
/-! DEFINITION. The word types of tile_renderer: bytes, video addresses, and the indices that the spec bounds
(spec/00_scope.md R5, R11, R13). An index out of range is not an operation of the hardware (92 D26), so the types
exclude it. -/

namespace Sys2Proof

/-- One byte: every access of the hardware moves eight bits (20_memory.md R70). -/
abbrev Byte := BitVec 8

/-- A 20-bit video address (20_memory.md R60). -/
abbrev VAddr := BitVec 20

/-- A layer number, 0 or 1 (00_scope.md R5 `LAYERS`). -/
abbrev LayerId := Fin 2

/-- A pointer number, 0 or 1 (10_state.md R24). -/
abbrev PtrId := Fin 2

/-- A screen column, 0 to 639 (20_memory.md R63). -/
abbrev ScreenX := Fin 640

/-- A screen row, 0 to 479 (20_memory.md R63). -/
abbrev ScreenY := Fin 480

/-- A colour index, 0 to 255, naming a palette entry (00_scope.md R18). -/
abbrev ColorIndex := Fin 256

/-- The sixteen byte registers of one layer (10_state.md R23). -/
abbrev LayerRegs := Vector Byte 16

/-- The layer register bank: two sets of sixteen registers (10_state.md R23). -/
abbrev LayerBank := Vector LayerRegs 2

/-- The three colour bytes of a looked-up palette entry, in nibble order N0, N1, N2
(45_compositor.md R250; the colour names are labels only, R251, 90_conflicts.md C1). -/
structure Colour where
  /-- `N0 << 4`, the blue byte. -/
  n0 : Byte
  /-- `N1 << 4`, the green byte. -/
  n1 : Byte
  /-- `N2 << 4`, the red byte. -/
  n2 : Byte
  deriving DecidableEq, Repr

end Sys2Proof
end

