-- ==== Sys2Proof/Machine/Memory.lean ====
section
/-! DEFINITION. A byte store as plain data: a list of (address, byte) cells in one canonical form, with reading,
writing and tabulating (spec/10_state.md R20, R21, R22, R27: the stores VRAM, ROM, PAL and FB). -/

namespace Sys2Proof

/-- A byte store: its listed cells. An unlisted address reads as `Memory.unlisted`. -/
abbrev Memory := List Host.Cell

namespace Machine

/-- What an unlisted address of a store reads as.
DESIGN CHOICE (log 12), unsafe: the spec leaves the first contents of VRAM, ROM and FB open. -/
def unlistedByte : Byte := 0x00

/-- The byte of a store at an address. -/
def memRead : Memory → Nat → Byte
  | [], _ => unlistedByte
  | c :: m, a => if c.1 = a then c.2 else memRead m a

/-- Drop every cell of an address. -/
def memErase : Memory → Nat → Memory
  | [], _ => []
  | c :: m, a => if c.1 = a then memErase m a else c :: memErase m a

/-- Put a cell before the first cell of a higher address. -/
def memInsert (c : Host.Cell) : Memory → Memory
  | [] => [c]
  | d :: m => if c.1 < d.1 then c :: d :: m else d :: memInsert c m

/-- Store a byte: the old cell goes, and the new one is listed unless it is what an unlisted address reads as. -/
def memWrite (m : Memory) (a : Nat) (v : Byte) : Memory :=
  if v = unlistedByte then memErase m a else memInsert (a, v) (memErase m a)

/-- The listed cells among some cells: those whose byte is not what an unlisted address reads as. -/
def memListed (cs : List Host.Cell) : Memory := cs.filter fun c => c.2 ≠ unlistedByte

/-- The store of `size` bytes whose byte at address `a` is `f a`. -/
def memTabulate (size : Nat) (f : Nat → Byte) : Memory :=
  memListed ((List.range size).map fun a => (a, f a))

end Machine

/-- The canonical form of a store of `size` bytes: addresses strictly rising and below `size`, no cell equal to
what an unlisted address reads as. -/
abbrev Memory.wf (size : Nat) (m : Memory) : Prop :=
  m.Pairwise (fun c d => c.1 < d.1) ∧ ∀ c ∈ m, c.1 < size ∧ c.2 ≠ Machine.unlistedByte

end Sys2Proof
end

