-- ==== Sys2Proof/Config.lean ====
section
/-! DEFINITION. What an implementation of tile_renderer fixes: the constants of spec/00_scope.md R5, the open
parameters of R6 as data, the spec's instantiation T of them (92 D34), and the one free value of the model. -/

namespace Sys2Proof.Config

/-- Screen width in pixels (R5 `SCREEN_W`). -/
def screenW : Nat := 640
/-- Screen height in pixels (R5 `SCREEN_H`). -/
def screenH : Nat := 480
/-- Bytes of VRAM (R5 `VRAM_SIZE`). -/
def vramSize : Nat := 0x20000
/-- Bytes of the character ROM (R5 `ROM_SIZE`). -/
def romSize : Nat := 0x1000
/-- Bytes of the palette store (R5 `PAL_BYTES`). -/
def palSize : Nat := 0x200
/-- Bytes per pixel of the frame buffer (R5 `FB_BYTES_PER_PIXEL`). -/
def fbBytesPerPixel : Nat := 4
/-- Bytes of the frame buffer (R5 `FB_SIZE`). -/
def fbSize : Nat := 1228800
/-- The byte read from an unmapped address (R5 `UNMAPPED_READ`). -/
def unmappedRead : Byte := 0xFF

/-- The open parameters that operations after power-on read again (00_scope.md R6). -/
structure ResetParams where
  /-- `LAYER_RESET`: the layer registers' reset values (D17). -/
  layerReset : LayerBank
  /-- `PALETTE_RESET`: the palette's reset values (D18). -/
  paletteReset : Memory
  /-- `FB_PAD`: the fourth byte of every pixel of the frame buffer (D4). -/
  fbPad : Byte
  deriving DecidableEq, Repr

/-- The open parameters of 00_scope.md R6, the operands of `POWERON` (R7). -/
structure OpenParams where
  /-- `CHAR_ROM`: the character ROM image (D19). -/
  charRom : Memory
  /-- `VRAM_INIT`: VRAM at power-on (D20). -/
  vramInit : Memory
  /-- `FB_INIT`: the frame buffer before the first frame pass (D6). -/
  fbInit : Memory
  /-- `LAYER_RESET`, `PALETTE_RESET`, `FB_PAD`. -/
  reset : ResetParams
  deriving DecidableEq, Repr

/-- `LAYER_RESET` of the spec's instantiation T (92 D34): `LAYER_RESET[0]` = 01 00 00 00 00 80 and ten 00,
`LAYER_RESET[1]` = sixteen 00. -/
def layerResetT : LayerBank :=
  #v[#v[0x01, 0x00, 0x00, 0x00, 0x00, 0x80, 0x00, 0x00, 0x00, 0x00, 0x00, 0x00, 0x00, 0x00, 0x00, 0x00],
     Vector.replicate 16 0x00]

/-- `LAYER_RESET`, `PALETTE_RESET` and `FB_PAD` of the spec's instantiation T (92 D34): `PALETTE_RESET[a]` is
`(7*a + 3) mod 256`, `FB_PAD` is 0x00.
DESIGN CHOICE (log 11), unsafe: `State.reset` uses these values where the spec leaves the parameters open. -/
def resetParamsT : ResetParams where
  layerReset := layerResetT
  paletteReset := Machine.memTabulate palSize fun a => BitVec.ofNat 8 (7 * a + 3)
  fbPad := 0x00

/-- Instantiation T with `CHAR_ROM`, `VRAM_INIT` and `FB_INIT` all zero (92 D34; logs 12, 13, 14). -/
def openParamsT : OpenParams where
  charRom := []
  vramInit := []
  fbInit := []
  reset := resetParamsT

/-- The fields of `Props` that some class of modes does not use (42_layer_config.md R185, R186, R190, R191). -/
inductive UnusedField where
  | mapw | maph | mapBase | stride | palOffset
  deriving DecidableEq, Repr

/-- FREE VALUE (log 9), safe: what a field of `Props` holds in a class that does not use it. "Fields a class does
not use may hold anything" (42_layer_config.md R195). It has no body, so nothing can be proved of its value. Its argument
is registers 0 to 9 of the layer: `Props(L)` "reads `LR[L][0..9]` and nothing else" (R180). -/
opaque unusedProp : UnusedField → Vector Byte 10 → Nat

end Sys2Proof.Config
end

