-- ==== Sys2Proof/Syntax.lean ====
section
/-! DEFINITION. The operations of tile_renderer: one constructor of `Instr` for each of the 46 rows of
spec/opcode_table.json (00_scope.md R7, 30_encoding.md R122), and the request by which one is asked for. -/

namespace Sys2Proof

/-- The group of the opcode table a row belongs to (30_encoding.md R122). -/
inductive Format where
  /-- A port transaction, 12-bit pattern `d ppp vvvvvvvv` (R90). -/
  | port
  /-- A row of the video address decode, 20-bit pattern (R95). -/
  | vaddr
  /-- A value of the mode field, 3-bit pattern (R96). -/
  | mode
  /-- An operation selected by no bit pattern. -/
  | none
  deriving DecidableEq, Repr

/-- The direction of an access through the video address decode: each VADDR row has a read rule and a write rule
(40_address_space.md R132 to R141; log 7). -/
inductive Access where
  | read
  | write (v : Byte)
  deriving DecidableEq, Repr

/-- The operations. An operand is a field of the row's pattern or an operand its rule names; a don't-care bit of a
pattern is no operand (log 8). -/
inductive Instr where
  /-- `PR 0`: step and pointer bits 19:16 (41_io_ports.md R152). -/
  | pr0
  /-- `PW 0, v`: `v[7:4]` the step, `v[3:0]` pointer bits 19:16 (R153). -/
  | pw0 (step addrH : BitVec 4)
  /-- `PR 1`: pointer bits 15:8 (R154). -/
  | pr1
  /-- `PW 1, v`: pointer bits 15:8 (R155). -/
  | pw1 (addrM : Byte)
  /-- `PR 2`: pointer bits 7:0 (R156). -/
  | pr2
  /-- `PW 2, v`: pointer bits 7:0 (R157). -/
  | pw2 (addrL : Byte)
  /-- `PR 3`: read data through pointer 0, advance (R158). -/
  | pr3
  /-- `PW 3, v`: write data through pointer 0, advance (R159). -/
  | pw3 (data : Byte)
  /-- `PR 4`: read data through pointer 1, advance (R160). -/
  | pr4
  /-- `PW 4, v`: write data through pointer 1, advance (R161). -/
  | pw4 (data : Byte)
  /-- `PR 5`: the selector (R170). -/
  | pr5
  /-- `PW 5, v` with bit 7 clear: set the selector (R171). -/
  | pw5Select (addrsel : BitVec 1)
  /-- `PW 5, v` with bit 7 set: reset, then set the selector (R171). -/
  | pw5Reset (addrsel : BitVec 1)
  /-- `PR 6`: dummy (R172). -/
  | pr6
  /-- `PW 6, v`: dummy (R173). -/
  | pw6
  /-- `PR 7`: dummy (R174). -/
  | pr7
  /-- `PW 7, v`: dummy (R175). -/
  | pw7
  /-- Access to VRAM (40_address_space.md R132, R133). -/
  | vaddrRam (offset : BitVec 17) (acc : Access)
  /-- Access to the character ROM (R134, R135). -/
  | vaddrRom (offset : BitVec 12) (acc : Access)
  /-- Access to the gap 0x21000-0x3FFFF (R136, R137). -/
  | vaddrUnmapped1 (acc : Access)
  /-- Access to a register of layer 0 (R138, R139). -/
  | vaddrLreg0 (reg : BitVec 4) (acc : Access)
  /-- Access to a register of layer 1 (R138, R139). -/
  | vaddrLreg1 (reg : BitVec 4) (acc : Access)
  /-- Access to the gap 0x40020-0x401FF (R136, R137). -/
  | vaddrUnmapped2 (acc : Access)
  /-- Access to the palette (R140, R141). -/
  | vaddrPal (offset : BitVec 9) (acc : Access)
  /-- Access to the gap 0x40400-0xFFFFF (R136, R137). -/
  | vaddrUnmapped3 (acc : Access)
  /-- Mode 0 (43_tile_renderer.md R220). -/
  | renderText16 (L : LayerId) (x : ScreenX) (y : ScreenY)
  /-- Mode 1 (R221). -/
  | renderText256 (L : LayerId) (x : ScreenX) (y : ScreenY)
  /-- Mode 2 (R222). -/
  | renderTile2 (L : LayerId) (x : ScreenX) (y : ScreenY)
  /-- Mode 3 (R223). -/
  | renderTile4 (L : LayerId) (x : ScreenX) (y : ScreenY)
  /-- Mode 4 (R224). -/
  | renderTile8 (L : LayerId) (x : ScreenX) (y : ScreenY)
  /-- Mode 5 (44_bitmap_renderer.md R238). -/
  | renderBitmap2 (L : LayerId) (x : ScreenX) (y : ScreenY)
  /-- Mode 6 (R239). -/
  | renderBitmap4 (L : LayerId) (x : ScreenX) (y : ScreenY)
  /-- Mode 7 (R240). -/
  | renderBitmap8 (L : LayerId) (x : ScreenX) (y : ScreenY)
  /-- `VREAD a` (40_address_space.md R142). -/
  | vread (a : VAddr)
  /-- `VWRITE a, v` (R143). -/
  | vwrite (a : VAddr) (v : Byte)
  /-- `Advance(k)` (41_io_ports.md R166). -/
  | advance (k : PtrId)
  /-- `Props(L)` (42_layer_config.md R195). -/
  | props (L : LayerId)
  /-- `ApplyOffset(c0, po)` (43_tile_renderer.md R218). -/
  | applyOffset (c0 : ColorIndex) (po : Fin 16)
  /-- `Render(L, x, y)`, the source's `resolveColor` (45_compositor.md R245). -/
  | render (L : LayerId) (x : ScreenX) (y : ScreenY)
  /-- `Composite(x, y)` (R248). -/
  | composite (x : ScreenX) (y : ScreenY)
  /-- `PaletteLookup(i)` (R250). -/
  | paletteLookup (i : ColorIndex)
  /-- `FrameBufferWrite(x, y, c)` (R252). -/
  | frameBufferWrite (x : ScreenX) (y : ScreenY) (c : Colour)
  /-- `FRAME`, one frame pass (R256). -/
  | frame
  /-- `RESET`, the controller reset (70_reset_and_hazards.md R290). -/
  | reset
  /-- `POWERON` with the open parameters as operands (R293; 00_scope.md R7). -/
  | poweron (p : Config.OpenParams)
  /-- `SNAPSHOT` (60_exceptions.md R281). -/
  | snapshot
  deriving DecidableEq, Repr

/-- The group of the opcode table an operation's row belongs to (30_encoding.md R122). -/
def Instr.format : Instr → Format
  | .pr0 | .pw0 .. | .pr1 | .pw1 .. | .pr2 | .pw2 .. | .pr3 | .pw3 .. | .pr4 | .pw4 .. | .pr5 | .pw5Select ..
  | .pw5Reset .. | .pr6 | .pw6 | .pr7 | .pw7 => .port
  | .vaddrRam .. | .vaddrRom .. | .vaddrUnmapped1 .. | .vaddrLreg0 .. | .vaddrLreg1 .. | .vaddrUnmapped2 ..
  | .vaddrPal .. | .vaddrUnmapped3 .. => .vaddr
  | .renderText16 .. | .renderText256 .. | .renderTile2 .. | .renderTile4 .. | .renderTile8 .. | .renderBitmap2 ..
  | .renderBitmap4 .. | .renderBitmap8 .. => .mode
  | .vread .. | .vwrite .. | .advance .. | .props .. | .applyOffset .. | .render .. | .composite ..
  | .paletteLookup .. | .frameBufferWrite .. | .frame | .reset | .poweron .. | .snapshot => .none

/-- How an operation is asked for. The hardware fetches no instructions (10_state.md R29); the outside world performs
operations one after another (00_scope.md R9), and the model reads them from a list of requests (logs 1, 5). -/
inductive Request where
  /-- An operation selected by a bit pattern: its group and its bytes, the pattern first, low byte first. -/
  | coded (fmt : Format) (bytes : List Byte)
  /-- An operation selected by no bit pattern: named, with its operands. -/
  | named (i : Instr)
  deriving DecidableEq, Repr

end Sys2Proof
end

