-- ==== Sys2Proof/WellFormed.lean ====
section
/-! DEFINITION. Which operations are well-formed: the operand types bound every operand (spec/92 D26), so only the
open parameters that `POWERON` carries are checked, against the constraints of spec/00_scope.md R6. -/

namespace Sys2Proof

open Config

/-- The constraints of 00_scope.md R6 on the parameters that are read again after power-on:
`LAYER_RESET[0][0]` bit 0 = 1, `LAYER_RESET[0][4]` = 0x00, `LAYER_RESET[0][5]` = 0x80, and 512 palette bytes. -/
abbrev ResetParamsOk (p : ResetParams) : Prop :=
  ((p.layerReset.get 0).get 0).getLsbD 0 = true ∧
  (p.layerReset.get 0).get 4 = 0x00 ∧
  (p.layerReset.get 0).get 5 = 0x80 ∧
  Memory.wf palSize p.paletteReset

/-- The constraints of 00_scope.md R6 on all open parameters: sizes, and `ResetParamsOk`. -/
abbrev OpenParamsOk (p : OpenParams) : Prop :=
  Memory.wf romSize p.charRom ∧ Memory.wf vramSize p.vramInit ∧ Memory.wf fbSize p.fbInit ∧ ResetParamsOk p.reset

/-- An operation is well-formed when the parameters it carries meet 00_scope.md R6. -/
def Instr.wellFormed : Instr → Bool
  | .pr0 | .pw0 .. | .pr1 | .pw1 .. | .pr2 | .pw2 .. | .pr3 | .pw3 .. | .pr4 | .pw4 .. | .pr5 | .pw5Select ..
  | .pw5Reset .. | .pr6 | .pw6 | .pr7 | .pw7
  | .vaddrRam .. | .vaddrRom .. | .vaddrUnmapped1 .. | .vaddrLreg0 .. | .vaddrLreg1 .. | .vaddrUnmapped2 ..
  | .vaddrPal .. | .vaddrUnmapped3 ..
  | .renderText16 .. | .renderText256 .. | .renderTile2 .. | .renderTile4 .. | .renderTile8 .. | .renderBitmap2 ..
  | .renderBitmap4 .. | .renderBitmap8 ..
  | .vread .. | .vwrite .. | .advance .. | .props .. | .applyOffset .. | .render .. | .composite ..
  | .paletteLookup .. | .frameBufferWrite .. | .frame | .reset | .snapshot => true
  | .poweron p => decide (OpenParamsOk p)

end Sys2Proof
end

