-- ==== Sys2Proof/Decode.lean ====
section
/-! DEFINITION. From the bits of a request to an operation, and back. The three pattern groups are those of
spec/30_encoding.md R90 (ports), R95 (video addresses) and R96 (modes). The bytes around a pattern are the model's own
(log 5): the spec has no wire format (92 D2). -/

namespace Sys2Proof

/-- Why the bytes of a request are no operation of the hardware. -/
inductive DecodeError where
  /-- The number of bytes is not the group's. -/
  | wrongLength
  /-- A bit above the group's pattern is set. -/
  | patternTooWide
  /-- The direction byte of a video address access is neither 0 (read) nor 1 (write). -/
  | badDirection
  /-- The layer number is above 1 (92 D26). -/
  | layerOutOfRange
  /-- The screen column is above 639 (92 D26). -/
  | xOutOfRange
  /-- The screen row is above 479 (92 D26). -/
  | yOutOfRange
  /-- Bytes for an operation that no bit pattern selects (30_encoding.md R122). -/
  | noPattern
  /-- A name for an operation that a bit pattern selects. -/
  | patternMissing
  deriving DecidableEq, Repr

/-! ## Decoding -/

/-- The port transaction of a 12-bit pattern `d ppp vvvvvvvv` (R90): bits 11:8 are `d ppp`, bits 7:0 the data byte. -/
def decodePort (w : BitVec 12) : Instr :=
  let dp := w.extractLsb' 8 4
  let v := w.extractLsb' 0 8
  if dp = 0b0000#4 then .pr0
  else if dp = 0b1000#4 then .pw0 (v.extractLsb' 4 4) (v.extractLsb' 0 4)
  else if dp = 0b0001#4 then .pr1
  else if dp = 0b1001#4 then .pw1 v
  else if dp = 0b0010#4 then .pr2
  else if dp = 0b1010#4 then .pw2 v
  else if dp = 0b0011#4 then .pr3
  else if dp = 0b1011#4 then .pw3 v
  else if dp = 0b0100#4 then .pr4
  else if dp = 0b1100#4 then .pw4 v
  else if dp = 0b0101#4 then .pr5
  else if dp = 0b1101#4 then
    if v.extractLsb' 7 1 = 0b0#1 then .pw5Select (v.extractLsb' 0 1) else .pw5Reset (v.extractLsb' 0 1)
  else if dp = 0b0110#4 then .pr6
  else if dp = 0b1110#4 then .pw6
  else if dp = 0b0111#4 then .pr7
  else .pw7

/-- The row of the video address decode that a 20-bit address selects (R95): the patterns are tried in order, and the
first that matches wins. -/
def decodeVaddr (a : VAddr) (acc : Access) : Instr :=
  if a.extractLsb' 17 3 = 0b000#3 then .vaddrRam (a.extractLsb' 0 17) acc
  else if a.extractLsb' 12 8 = 0b00100000#8 then .vaddrRom (a.extractLsb' 0 12) acc
  else if a.extractLsb' 17 3 = 0b001#3 then .vaddrUnmapped1 acc
  else if a.extractLsb' 4 16 = 0b0100000000000000#16 then .vaddrLreg0 (a.extractLsb' 0 4) acc
  else if a.extractLsb' 4 16 = 0b0100000000000001#16 then .vaddrLreg1 (a.extractLsb' 0 4) acc
  else if a.extractLsb' 9 11 = 0b01000000000#11 then .vaddrUnmapped2 acc
  else if a.extractLsb' 9 11 = 0b01000000001#11 then .vaddrPal (a.extractLsb' 0 9) acc
  else .vaddrUnmapped3 acc

/-- The pixel function that a 3-bit mode value selects (R96). -/
def decodeMode (m : BitVec 3) (L : LayerId) (x : ScreenX) (y : ScreenY) : Instr :=
  if m = 0b000#3 then .renderText16 L x y
  else if m = 0b001#3 then .renderText256 L x y
  else if m = 0b010#3 then .renderTile2 L x y
  else if m = 0b011#3 then .renderTile4 L x y
  else if m = 0b100#3 then .renderTile8 L x y
  else if m = 0b101#3 then .renderBitmap2 L x y
  else if m = 0b110#3 then .renderBitmap4 L x y
  else .renderBitmap8 L x y

/-- The access of a direction byte and a data byte (log 5): 0 reads, 1 writes the data byte. -/
def decodeAccess (dir v : Byte) : Except DecodeError Access :=
  if dir = 0 then .ok .read else if dir = 1 then .ok (.write v) else .error .badDirection

/-- The operation of a port request's bytes (log 5). -/
def decodePortBytes : List Byte → Except DecodeError Instr
  | [b0, b1] =>
    if b1.extractLsb' 4 4 = 0#4 then .ok (decodePort (b1.extractLsb' 0 4 ++ b0)) else .error .patternTooWide
  | _ => .error .wrongLength

/-- The operation of a video address request's bytes (log 5). -/
def decodeVaddrBytes : List Byte → Except DecodeError Instr
  | [b0, b1, b2, dir, v] =>
    if b2.extractLsb' 4 4 = 0#4 then
      match decodeAccess dir v with
      | .ok acc => .ok (decodeVaddr (b2.extractLsb' 0 4 ++ b1 ++ b0) acc)
      | .error e => .error e
    else .error .patternTooWide
  | _ => .error .wrongLength

/-- The operation of a mode request's bytes (log 5): the mode value, the layer, x and y low byte first. -/
def decodeModeBytes : List Byte → Except DecodeError Instr
  | [m, l, x0, x1, y0, y1] =>
    if m.extractLsb' 3 5 = 0#5 then
      if hl : l.toNat < 2 then
        if hx : x0.toNat + 256 * x1.toNat < 640 then
          if hy : y0.toNat + 256 * y1.toNat < 480 then
            .ok (decodeMode (m.extractLsb' 0 3) ⟨l.toNat, hl⟩ ⟨x0.toNat + 256 * x1.toNat, hx⟩
              ⟨y0.toNat + 256 * y1.toNat, hy⟩)
          else .error .yOutOfRange
        else .error .xOutOfRange
      else .error .layerOutOfRange
    else .error .patternTooWide
  | _ => .error .wrongLength

/-- The operation a request asks for, or why there is none. Total on any bytes. -/
def decode : Request → Except DecodeError Instr
  | .coded .port bytes => decodePortBytes bytes
  | .coded .vaddr bytes => decodeVaddrBytes bytes
  | .coded .mode bytes => decodeModeBytes bytes
  | .coded .none _ => .error .noPattern
  | .named i => if i.format = .none then .ok i else .error .patternMissing

/-! ## Encoding -/

/-- A port request: `d ppp` and the data byte (R90). -/
def encodePort (dp : BitVec 4) (v : Byte) : Request := .coded .port [v, 0#4 ++ dp]

/-- The direction and data bytes of an access (log 5). -/
def encodeAccess : Access → List Byte
  | .read => [0, 0]
  | .write v => [1, v]

/-- A video address request (R95). -/
def encodeVaddr (a : VAddr) (acc : Access) : Request :=
  .coded .vaddr ([a.extractLsb' 0 8, a.extractLsb' 8 8, 0#4 ++ a.extractLsb' 16 4] ++ encodeAccess acc)

/-- A mode request (R96). -/
def encodeMode (m : BitVec 3) (L : LayerId) (x : ScreenX) (y : ScreenY) : Request :=
  .coded .mode [0#5 ++ m, BitVec.ofNat 8 L.val, BitVec.ofNat 8 x.val, BitVec.ofNat 8 (x.val / 256),
    BitVec.ofNat 8 y.val, BitVec.ofNat 8 (y.val / 256)]

/-- The request for an operation: its pattern with don't-care bits zero; an unmapped row's lowest address; an
operation without a pattern by its name. -/
def encode : Instr → Request
  | .pr0 => encodePort 0b0000 0
  | .pw0 step addrH => encodePort 0b1000 (step ++ addrH)
  | .pr1 => encodePort 0b0001 0
  | .pw1 addrM => encodePort 0b1001 addrM
  | .pr2 => encodePort 0b0010 0
  | .pw2 addrL => encodePort 0b1010 addrL
  | .pr3 => encodePort 0b0011 0
  | .pw3 data => encodePort 0b1011 data
  | .pr4 => encodePort 0b0100 0
  | .pw4 data => encodePort 0b1100 data
  | .pr5 => encodePort 0b0101 0
  | .pw5Select addrsel => encodePort 0b1101 (0b0000000#7 ++ addrsel)
  | .pw5Reset addrsel => encodePort 0b1101 (0b1000000#7 ++ addrsel)
  | .pr6 => encodePort 0b0110 0
  | .pw6 => encodePort 0b1110 0
  | .pr7 => encodePort 0b0111 0
  | .pw7 => encodePort 0b1111 0
  | .vaddrRam offset acc => encodeVaddr (0b000#3 ++ offset) acc
  | .vaddrRom offset acc => encodeVaddr (0b00100000#8 ++ offset) acc
  | .vaddrUnmapped1 acc => encodeVaddr 0x21000 acc
  | .vaddrLreg0 reg acc => encodeVaddr (0b0100000000000000#16 ++ reg) acc
  | .vaddrLreg1 reg acc => encodeVaddr (0b0100000000000001#16 ++ reg) acc
  | .vaddrUnmapped2 acc => encodeVaddr 0x40020 acc
  | .vaddrPal offset acc => encodeVaddr (0b01000000001#11 ++ offset) acc
  | .vaddrUnmapped3 acc => encodeVaddr 0x40400 acc
  | .renderText16 L x y => encodeMode 0b000 L x y
  | .renderText256 L x y => encodeMode 0b001 L x y
  | .renderTile2 L x y => encodeMode 0b010 L x y
  | .renderTile4 L x y => encodeMode 0b011 L x y
  | .renderTile8 L x y => encodeMode 0b100 L x y
  | .renderBitmap2 L x y => encodeMode 0b101 L x y
  | .renderBitmap4 L x y => encodeMode 0b110 L x y
  | .renderBitmap8 L x y => encodeMode 0b111 L x y
  | .vread a => .named (.vread a)
  | .vwrite a v => .named (.vwrite a v)
  | .advance k => .named (.advance k)
  | .props L => .named (.props L)
  | .applyOffset c0 po => .named (.applyOffset c0 po)
  | .render L x y => .named (.render L x y)
  | .composite x y => .named (.composite x y)
  | .paletteLookup i => .named (.paletteLookup i)
  | .frameBufferWrite x y c => .named (.frameBufferWrite x y c)
  | .frame => .named .frame
  | .reset => .named .reset
  | .poweron p => .named (.poweron p)
  | .snapshot => .named .snapshot

/-! ## The opcode table's words -/

/-- Byte `i` of a number, the least significant first. -/
def byteOf (w i : Nat) : Byte := BitVec.ofNat 8 (w / 256 ^ i)

/-- The request for a word of spec/opcode_table.json of `nbits` bits in whole bytes: 8 bits are a mode value, 16 a port
pattern, 24 a video address; the operand bytes the table gives no bits are zero (layer 0, x 0, y 0; a read). -/
def tableRequest (nbits w : Nat) : Option Request :=
  if nbits = 0 then none
  else if nbits ≤ 8 then some (.coded .mode [byteOf w 0, 0, 0, 0, 0, 0])
  else if nbits ≤ 16 then some (.coded .port [byteOf w 0, byteOf w 1])
  else if nbits ≤ 24 then some (.coded .vaddr [byteOf w 0, byteOf w 1, byteOf w 2, 0, 0])
  else none

/-- The operation the decoder reads from a word of spec/opcode_table.json, none where it refuses. -/
def decodeTableWord (nbits w : Nat) : Option Instr :=
  match tableRequest nbits w with
  | none => none
  | some r => (decode r).toOption

end Sys2Proof
end

