-- ==== Sys2Proof/Machine/Operands.lean ====
section
/-! DEFINITION. Every operand form of the renderers: the decode of a layer's registers into its properties
(spec/42_layer_config.md), the map cell formats (spec/30_encoding.md R98 to R100), the address and coordinate stages, the pixel
extraction and the palette sub-offset (spec/43_tile_renderer.md, spec/44_bitmap_renderer.md). All are pure functions on
natural numbers (spec/00_scope.md R14). -/

namespace Sys2Proof.Machine

/-! ## Bits of a value -/

/-- `v[hi:lo]`: the unsigned number made of bits `hi` down to `lo` of `v` (00_scope.md R13). -/
def slice (v hi lo : Nat) : Nat := v / 2 ^ lo % 2 ^ (hi + 1 - lo)

/-- Layer register `i` as a number. -/
def reg (r : LayerRegs) (i : Fin 16) : Nat := (r.get i).toNat

/-! ## Field positions the source leaves open -/

/-- `MAPW` is bits 1:0 of register 1 (10_state.md R31). PRESUMED by the spec (D7, log 16). -/
def mapwLsb : Nat := 0
/-- `MAPH` is bits 3:2 of register 1 (10_state.md R31). PRESUMED by the spec (D7, log 16). -/
def maphLsb : Nat := 2
/-- `TILEW` is bit 4 of register 1 (10_state.md R31). PRESUMED by the spec (D7, log 16). -/
def tilewBit : Nat := 4
/-- `TILEH` is bit 5 of register 1 (10_state.md R31). PRESUMED by the spec (D7, log 16). -/
def tilehBit : Nat := 5

/-- The scroll offsets `(hscroll, vscroll)` of registers 6 to 9 (42_layer_config.md R189).
PRESUMED by the spec (D10, log 18): low byte in the even register, high nibble in the odd one, horizontal first. -/
def scrollOf (r : LayerRegs) : Nat × Nat :=
  (reg r 6 ||| slice (reg r 7) 3 0 <<< 8, reg r 8 ||| slice (reg r 9) 3 0 <<< 8)

/-- The horizontal scale field, bits 2:1 of register 0 (42_layer_config.md R184). DEDUCED by the spec (D9, log 17). -/
def hscaleField (r : LayerRegs) : Nat := slice (reg r 0) 2 1
/-- The vertical scale field, bits 4:3 of register 0 (42_layer_config.md R184). DEDUCED by the spec (D9, log 17). -/
def vscaleField (r : LayerRegs) : Nat := slice (reg r 0) 4 3

/-- A base address from its low and high register (42_layer_config.md R186, R187). DEDUCED by the spec (D11, log 19): each
field is the whole register. -/
def baseOf (lo hi : Nat) : Nat := lo <<< 2 ||| hi <<< 10

/-! ## Modes and layer properties -/

/-- The render modes (30_encoding.md R96). -/
inductive Mode where
  | text16 | text256 | tile2 | tile4 | tile8 | bitmap2 | bitmap4 | bitmap8
  deriving DecidableEq, Repr

/-- The three classes of modes (42_layer_config.md R182). -/
inductive LayerClass where
  | text | tile | bitmap
  deriving DecidableEq, Repr

/-- The mode of a value of the 3-bit `MODE` field (30_encoding.md R96). -/
def modeOfField : Nat → Mode
  | 0 => .text16
  | 1 => .text256
  | 2 => .tile2
  | 3 => .tile4
  | 4 => .tile8
  | 5 => .bitmap2
  | 6 => .bitmap4
  | _ => .bitmap8

/-- The mode of a layer: `r[0][7:5]` (42_layer_config.md R182). -/
def modeOf (r : LayerRegs) : Mode := modeOfField (slice (reg r 0) 7 5)

/-- Whether a layer is enabled: `r[0][0]` (42_layer_config.md R181). -/
def layerEnabled (r : LayerRegs) : Bool := slice (reg r 0) 0 0 == 1

/-- The class of a mode (42_layer_config.md R182). -/
def classOf : Mode → LayerClass
  | .text16 | .text256 => .text
  | .tile2 | .tile4 | .tile8 => .tile
  | .bitmap2 | .bitmap4 | .bitmap8 => .bitmap

/-- The bits per pixel of a mode (42_layer_config.md R183). -/
def bppOf : Mode → Nat
  | .text16 | .text256 => 1
  | .tile2 | .bitmap2 => 2
  | .tile4 | .bitmap4 => 4
  | .tile8 | .bitmap8 => 8

/-- Registers 0 to 9 of a layer, all that `Props` reads (42_layer_config.md R180). -/
def propRegs (r : LayerRegs) : Vector Byte 10 :=
  #v[r.get 0, r.get 1, r.get 2, r.get 3, r.get 4, r.get 5, r.get 6, r.get 7, r.get 8, r.get 9]

/-- The record of layer properties (42_layer_config.md R195). -/
structure Props where
  enabled : Bool
  mode : Mode
  cls : LayerClass
  bpp : Nat
  hscale : Nat
  vscale : Nat
  mapw : Nat
  maph : Nat
  tilew : Nat
  tileh : Nat
  mapBase : Nat
  tileBase : Nat
  hscroll : Nat
  vscroll : Nat
  stride : Nat
  palOffset : Nat
  tileSize : Nat
  deriving DecidableEq, Repr

/-- The width of a layer's tiles in pixels (42_layer_config.md R188). -/
def tileWidth (r : LayerRegs) : LayerClass → Nat
  | .text => 8
  | .tile => 8 <<< slice (reg r 1) tilewBit tilewBit
  | .bitmap => Config.screenW

/-- The height of a layer's tiles in pixels (42_layer_config.md R188). -/
def tileHeight (r : LayerRegs) : LayerClass → Nat
  | .text => 8
  | .tile => 8 <<< slice (reg r 1) tilehBit tilehBit
  | .bitmap => Config.screenH

/-- A value that the text and tile classes have and the bitmap class does not use (log 9). -/
def unlessBitmap (r : LayerRegs) (f : Config.UnusedField) (v : Nat) : LayerClass → Nat
  | .text => v
  | .tile => v
  | .bitmap => Config.unusedProp f (propRegs r)

/-- The horizontal and vertical scroll of a class: none in the bitmap class (42_layer_config.md R189). -/
def scrollIn (v : Nat) : LayerClass → Nat
  | .text => v
  | .tile => v
  | .bitmap => 0

/-- The bitmap row stride in units of 4 bytes, which only the bitmap class uses (42_layer_config.md R190). -/
def strideOf (r : LayerRegs) : LayerClass → Nat
  | .text => Config.unusedProp .stride (propRegs r)
  | .tile => Config.unusedProp .stride (propRegs r)
  | .bitmap => reg r 6

/-- The register's palette sub-offset: the bitmap class's; 0 in the text class (D33, log 25); in the tile class it comes
from the map cell and this field is not used (42_layer_config.md R191). -/
def palOffsetOf (r : LayerRegs) : LayerClass → Nat
  | .text => 0
  | .tile => Config.unusedProp .palOffset (propRegs r)
  | .bitmap => slice (reg r 7) 3 0

/-- `Props(L)` of a layer's registers (42_layer_config.md R180 to R195). -/
def propsOf (r : LayerRegs) : Props :=
  let m := modeOf r
  let c := classOf m
  { enabled := layerEnabled r
    mode := m
    cls := c
    bpp := bppOf m
    hscale := hscaleField r + 1
    vscale := vscaleField r + 1
    mapw := unlessBitmap r .mapw (32 <<< slice (reg r 1) (mapwLsb + 1) mapwLsb) c
    maph := unlessBitmap r .maph (32 <<< slice (reg r 1) (maphLsb + 1) maphLsb) c
    tilew := tileWidth r c
    tileh := tileHeight r c
    mapBase := unlessBitmap r .mapBase (baseOf (reg r 2) (reg r 3)) c
    tileBase := baseOf (reg r 4) (reg r 5)
    hscroll := scrollIn (scrollOf r).1 c
    vscroll := scrollIn (scrollOf r).2 c
    stride := strideOf r c
    palOffset := palOffsetOf r c
    tileSize := tileWidth r c * bppOf m * tileHeight r c / 8 }

/-! ## The stages of a pixel -/

/-- Scale (43_tile_renderer.md R201): the screen coordinate divided by the scale factor. -/
def scaled (v factor : Nat) : Nat := v / factor

/-- Scroll and wrap (R202). -/
def wrapped (v scroll modulus : Nat) : Nat := (v + scroll) % modulus

/-- Map cell address (R206). Rows and columns: DEDUCED by the spec (D12, log 20). -/
def mapCellAddr (mapBase mapw row col : Nat) : Nat := mapBase + 2 * (row * mapw + col)

/-- Foreground of a mode 0 map cell: `byte1[3:0]` (30_encoding.md R98). -/
def cellFg16 (byte1 : Nat) : Nat := slice byte1 3 0
/-- Background of a mode 0 map cell: `byte1[7:4]` (30_encoding.md R98). -/
def cellBg16 (byte1 : Nat) : Nat := slice byte1 7 4
/-- Background of mode 1: colour index 0 (43_tile_renderer.md R209). DESIGN CHOICE of the spec (D14, log 22). -/
def cellBg256 : Nat := 0
/-- Tile index of a tile map cell (30_encoding.md R100). -/
def cellTileIndex (byte0 byte1 : Nat) : Nat := byte0 ||| (byte1 &&& 3) <<< 8
/-- Horizontal flip of a tile map cell: `byte1[2]` (30_encoding.md R100). -/
def cellHflip (byte1 : Nat) : Bool := slice byte1 2 2 == 1
/-- Vertical flip of a tile map cell: `byte1[3]` (30_encoding.md R100). -/
def cellVflip (byte1 : Nat) : Bool := slice byte1 3 3 == 1
/-- Palette sub-offset of a tile map cell: `byte1[7:4]` (30_encoding.md R100). -/
def cellPalOff (byte1 : Nat) : Nat := slice byte1 7 4

/-- Flip of a local coordinate (43_tile_renderer.md R211). -/
def flipped (flip : Bool) (dim c : Nat) : Nat := if flip then c ^^^ (dim - 1) else c

/-- Tile data offset (43_tile_renderer.md R212). -/
def tileOffset (idx tileSize tilew bpp xx yy : Nat) : Nat :=
  idx * tileSize + yy * tilew * bpp / 8 + xx * bpp / 8

/-- Bitmap data offset (44_bitmap_renderer.md R234). -/
def bitmapOffset (stride bpp xx yy : Nat) : Nat := yy * stride * 4 + xx * bpp / 8

/-- The bit of a 1 bpp byte that shows local column `xx` (43_tile_renderer.md R214): most significant first.
PRESUMED by the spec (D13, K4, log 21). -/
def bitOrder1bpp (xx : Nat) : Nat := 7 - xx % 8

/-- Extraction at 1 bpp (43_tile_renderer.md R214): a set bit is the foreground. -/
def extract1 (s xx fg bg : Nat) : Nat := if slice s (bitOrder1bpp xx) (bitOrder1bpp xx) = 1 then fg else bg

/-- Extraction at 2 bpp (43_tile_renderer.md R215). DEDUCED by the spec (D15, log 23). -/
def extract2 (s xx : Nat) : Nat := (s >>> (6 - 2 * (xx % 4))) &&& 3

/-- Extraction at 4 bpp (43_tile_renderer.md R216). DEDUCED by the spec (D15, log 23). -/
def extract4 (s xx : Nat) : Nat := (s >>> (4 - 4 * (xx % 2))) &&& 15

/-- `ApplyOffset(c0, po)` (43_tile_renderer.md R218; 90_conflicts.md C2): pixel values 1 to 15 move up by 16 times a
non-zero sub-offset; every other value stays. -/
def applyOffset (c0 po : Nat) : Nat := if po ≠ 0 ∧ 1 ≤ c0 ∧ c0 ≤ 15 then c0 + 16 * po else c0

end Sys2Proof.Machine
end

