-- ==== Sys2Proof/Machine/State.lean ====
section
/-! DEFINITION. The machine's state as plain data (spec/10_state.md R20 to R28), the reasons a step can stop, and the
state after power-on. -/

namespace Sys2Proof.Machine

/-- What an operation gives back (00_scope.md R7, column "result"). The model's own (log 2): the spec's block answers on
an interface it does not describe. -/
inductive Answer where
  /-- No result. -/
  | none
  /-- One byte: a port read or a `VREAD`. -/
  | byte (v : Byte)
  /-- A colour index: `Render` and what it is made of, `ApplyOffset`, `Composite`. -/
  | index (i : Nat)
  /-- Layer properties: `Props`. -/
  | props (p : Props)
  /-- Three colour bytes: `PaletteLookup`. -/
  | colour (c : Colour)
  /-- Copies of `VRAM`, `PAL` and `LR`: `SNAPSHOT` (60_exceptions.md R281). -/
  | snapshot (vram pal : Memory) (lr : LayerBank)
  deriving DecidableEq, Repr

/-- Why the machine would stop with a fault: never. "No operation of the hardware raises an exception"
(60_exceptions.md R270), so the type has no constructor. -/
inductive Fault where
  deriving DecidableEq, Repr

/-- Why a request has no meaning. No operation of 00_scope.md R7 is ever refused (R11). -/
inductive Refusal where
  /-- Raised by an arm of `exec` whose operation has no meaning yet; no arm is left so. Safe: the model stops. -/
  | notModelled (mnemonic : String)
  /-- Raised by `step` for a request that is no operation of the hardware: operands out of range (92 D26, U4) or bytes
  that the model's own request form does not have (log 5). Safe: the model stops. -/
  | notAnOperation (why : DecodeError)
  /-- Raised by `step` for a `POWERON` whose parameters break the constraints of 00_scope.md R6. Safe: the model stops
  where the spec says nothing. -/
  | parametersBreakR6
  /-- Raised by `step` for an outside move that is none (00_scope.md R12, 40_address_space.md R145: an operation that only
  the block starts, in `pending`), and for an outside move in `alone` (log 6). Safe: the model stops where the hardware has
  no such step. -/
  | wrongAgent
  /-- Raised by `step` for any operation but `POWERON` before power-on (00_scope.md R9; log 42). Safe: the model stops where
  the hardware has no such step. -/
  | notPoweredOn
  /-- Raised by `step` for a `POWERON` after power-on: "`POWERON` happens once" (70_reset_and_hazards.md R293; log 42). Safe:
  the model stops where the hardware has no such step. -/
  | alreadyPoweredOn
  deriving DecidableEq, Repr

/-- The whole state. The first eight fields are the spec's state (R28: "There is no other state"); `params` are the
parameters of the step relation (00_scope.md R10); the last four are the model's own: the schedule and its phase (R9), and
what the last operation gave back. -/
structure State where
  /-- `VRAM`, 131072 bytes (10_state.md R20). -/
  vram : Memory
  /-- `ROM`, the character ROM, 4096 bytes (R21). -/
  rom : Memory
  /-- `PAL`, 512 bytes (R22). -/
  pal : Memory
  /-- `LR`, two sets of sixteen byte registers (R23). -/
  lr : LayerBank
  /-- `PTR[0]`, `PTR[1]` (R24). -/
  ptr : Vector VAddr 2
  /-- `INC[0]`, `INC[1]` (R25). -/
  inc : Vector (BitVec 4) 2
  /-- `SEL` (R26). -/
  sel : BitVec 1
  /-- `FB`, the frame buffer, 1228800 bytes (R27). -/
  fb : Memory
  /-- `LAYER_RESET`, `PALETTE_RESET`, `FB_PAD` as `POWERON` was given them (00_scope.md R6, R7; log 15). -/
  params : Config.ResetParams
  /-- The model's own: the moves of the surrounding machine still to be performed, the schedule of 00_scope.md R9, R10 and
  R12 (log 1). -/
  pending : List Request
  /-- The model's own: an operation that only the block starts (00_scope.md R7, "internal"), taken out of the operation it is
  part of and looked at by itself. No step sets it and no outside move does (log 6). -/
  alone : Option Request
  /-- The model's own: whether `POWERON` has happened, "once before anything else" (00_scope.md R9; log 42). -/
  poweredOn : Bool
  /-- The model's own: what the last operation gave back (log 2). -/
  answer : Answer
  deriving DecidableEq, Repr

/-- The state after `POWERON` (10_state.md R46, 70_reset_and_hazards.md R293), nothing requested.
DESIGN CHOICE, unsafe: the open parameters are the spec's instantiation T with `CHAR_ROM`, `VRAM_INIT` and `FB_INIT` all
zero (92 D34; logs 11 to 14). -/
def State.reset : State where
  vram := []
  rom := []
  pal := Config.resetParamsT.paletteReset
  lr := Config.resetParamsT.layerReset
  ptr := #v[0x00000, 0x00000]
  inc := #v[0, 0]
  sel := 0
  fb := []
  params := Config.resetParamsT
  pending := []
  alone := none
  poweredOn := true
  answer := .none

/-- The block before `POWERON`: as `State.reset`, with the power-on still to come. No rule reads what the stores and registers
hold here, because `POWERON` writes all of them (R293) and comes "before anything else" (00_scope.md R9; log 42). -/
def State.off : State := { State.reset with poweredOn := false }

end Sys2Proof.Machine
end

