-- ==== Sys2Proof/Machine/Ops.lean ====
section
/-! DEFINITION. The named operations over the stores and registers that every meaning is made of: field updates, the
video address decoder (spec/40_address_space.md), the pointer window and the data ports (spec/41_io_ports.md), the controller
reset and power-on (spec/70_reset_and_hazards.md), and the acceptance of a request. The hardware has no exception
(spec/60_exceptions.md R270, R275), so there is no entry to one and no return. -/

namespace Sys2Proof.Machine

/-! ## Field updates -/

/-- Replace VRAM. -/
def State.setVram (s : State) (m : Memory) : State := { s with vram := m }
/-- Replace the palette store. -/
def State.setPal (s : State) (m : Memory) : State := { s with pal := m }
/-- Set layer register `i` of layer `L`. -/
def State.setLayerReg (s : State) (L : LayerId) (i : Fin 16) (v : Byte) : State :=
  { s with lr := s.lr.set L ((s.lr.get L).set i v) }
/-- Set the address of pointer `k`. -/
def State.setPtr (s : State) (k : PtrId) (a : VAddr) : State := { s with ptr := s.ptr.set k a }
/-- Set the step of pointer `k`. -/
def State.setInc (s : State) (k : PtrId) (i : BitVec 4) : State := { s with inc := s.inc.set k i }
/-- Set the selector. -/
def State.setSel (s : State) (b : BitVec 1) : State := { s with sel := b }
/-- Replace the frame buffer. -/
def State.setFb (s : State) (m : Memory) : State := { s with fb := m }
/-- Record what an operation gives back. -/
def State.give (s : State) (a : Answer) : State := { s with answer := a }

/-! ## The video address decoder -/

/-- The target of a video address (40_address_space.md R130). -/
inductive Region where
  /-- `RAM(o)`. -/
  | ram (o : Nat)
  /-- `ROMR(o)`. -/
  | rom (o : Nat)
  /-- `LREG(L, i)`. -/
  | lreg (L : LayerId) (i : Fin 16)
  /-- `PALR(o)`. -/
  | pal (o : Nat)
  /-- `UNMAPPED`. -/
  | unmapped
  deriving DecidableEq, Repr

/-- `Region(a)`: the rows are checked in order, first match wins, after a reduction to 20 bits
(40_address_space.md R130; D27, log 33). -/
def region (addr : Nat) : Region :=
  let a := addr % 2 ^ 20
  if a ≤ 0x1FFFF then .ram a
  else if a ≤ 0x20FFF then .rom (a % 0x1000)
  else if a ≤ 0x3FFFF then .unmapped
  else if a ≤ 0x4000F then .lreg 0 (Fin.ofNat 16 a)
  else if a ≤ 0x4001F then .lreg 1 (Fin.ofNat 16 a)
  else if a ≤ 0x401FF then .unmapped
  else if a ≤ 0x403FF then .pal (a % 0x200)
  else .unmapped

/-- Whether a target stores what is written to it, and so reads it back (40_address_space.md R144): VRAM, the layer registers
and the palette do, the ROM and the unmapped addresses read what they read before. -/
def regionStores : Region → Bool
  | .ram _ => true
  | .rom _ => false
  | .lreg _ _ => true
  | .pal _ => true
  | .unmapped => false

/-- Read a target (40_address_space.md R132, R134, R136, R138, R140). -/
def regionRead (s : State) : Region → Byte
  | .ram o => memRead s.vram o
  | .rom o => memRead s.rom o
  | .lreg L i => (s.lr.get L).get i
  | .pal o => memRead s.pal o
  | .unmapped => Config.unmappedRead

/-- Write a target (R133, R135, R137, R139, R141): a write to the ROM or to an unmapped address does nothing. -/
def regionWrite (s : State) (v : Byte) : Region → State
  | .ram o => s.setVram (memWrite s.vram o v)
  | .rom _ => s
  | .lreg L i => s.setLayerReg L i v
  | .pal o => s.setPal (memWrite s.pal o v)
  | .unmapped => s

/-- `VREAD a` (40_address_space.md R142). -/
def vread (s : State) (a : Nat) : Byte := regionRead s (region a)

/-- `VWRITE a, v` (40_address_space.md R143). -/
def vwrite (s : State) (a : Nat) (v : Byte) : State := regionWrite s v (region a)

/-- One access to a target: a read answers with the byte, a write stores. -/
def accessRegion (s : State) (g : Region) : Access → State
  | .read => s.give (.byte (regionRead s g))
  | .write v => (regionWrite s v g).give .none

/-! ## Pointers and ports -/

/-- The pointer that ports 0 to 2 show: number `SEL` (41_io_ports.md R151). -/
def selected (s : State) : PtrId := ⟨s.sel.toNat, s.sel.isLt⟩

/-- `Advance(k)`: the pointer moves by its step, modulo 2^20 (41_io_ports.md R166, R167). -/
def advance (s : State) (k : PtrId) : State :=
  s.setPtr k (s.ptr.get k + (s.inc.get k).setWidth 20)

/-- A data port read (R158, R160): the access at the pointer's value, then the advance. -/
def dataPortRead (s : State) (k : PtrId) : State :=
  (advance s k).give (.byte (vread s (s.ptr.get k).toNat))

/-- A data port write (R159, R161): the access at the pointer's value, then the advance. -/
def dataPortWrite (s : State) (k : PtrId) (v : Byte) : State :=
  (advance (vwrite s (s.ptr.get k).toNat v) k).give .none

/-- The port 0 byte of the selected pointer: step, then address bits 19:16 (R152). -/
def window0 (s : State) : Byte :=
  s.inc.get (selected s) ++ (s.ptr.get (selected s)).extractLsb' 16 4

/-- The port 1 byte of the selected pointer: address bits 15:8 (R154). -/
def window1 (s : State) : Byte := (s.ptr.get (selected s)).extractLsb' 8 8

/-- The port 2 byte of the selected pointer: address bits 7:0 (R156). -/
def window2 (s : State) : Byte := (s.ptr.get (selected s)).extractLsb' 0 8

/-- Write the port 0 fields of the selected pointer (R153): its step and its address bits 19:16. -/
def setWindow0 (s : State) (step addrH : BitVec 4) : State :=
  let k := selected s
  (s.setInc k step).setPtr k (addrH ++ (s.ptr.get k).extractLsb' 0 16)

/-- Write address bits 15:8 of the selected pointer (R155). -/
def setWindow1 (s : State) (v : Byte) : State :=
  let k := selected s
  s.setPtr k ((s.ptr.get k).extractLsb' 16 4 ++ v ++ (s.ptr.get k).extractLsb' 0 8)

/-- Write address bits 7:0 of the selected pointer (R157). -/
def setWindow2 (s : State) (v : Byte) : State :=
  let k := selected s
  s.setPtr k ((s.ptr.get k).extractLsb' 8 12 ++ v)

/-! ## Reset and power-on -/

/-- `Reset()` (70_reset_and_hazards.md R290): layer registers and palette from their parameters, both pointers and steps
cleared; `VRAM`, `ROM`, `FB` and `SEL` stay (R291; logs 28, 38). -/
def controllerReset (s : State) : State :=
  { s with
    lr := s.params.layerReset
    pal := s.params.paletteReset
    ptr := #v[0x00000, 0x00000]
    inc := #v[0, 0] }

/-- `PowerOn()` (70_reset_and_hazards.md R293): the ROM, VRAM and frame buffer from the open parameters, then `Reset()`,
then `SEL <- 0` (D21, log 29). From then on the block is powered on (log 42). -/
def powerOn (s : State) (p : Config.OpenParams) : State :=
  (controllerReset
    { s with rom := p.charRom, vram := p.vramInit, fb := p.fbInit, params := p.reset, poweredOn := true }).setSel 0

/-! ## Agents and requests -/

/-- Who starts an operation (00_scope.md R7, column "who starts it"; R9). -/
inductive Agent where
  /-- The CPU side: port transactions. -/
  | cpu
  /-- The external emulation loop: `FRAME`. -/
  | frameAgent
  /-- The platform: `POWERON`. -/
  | platform
  /-- The persistence collaborator: `SNAPSHOT`. -/
  | persistence
  /-- The block itself, inside an operation of another agent. -/
  | block
  deriving DecidableEq, Repr

/-- Who starts an operation (00_scope.md R7, R9; 40_address_space.md R145: `VREAD` and `VWRITE` are called by the data ports
and the renderers only; 70_reset_and_hazards.md R292: a reset is started by `PW 5` and `POWERON` only). -/
def agentOf : Instr → Agent
  | .pr0 | .pw0 .. | .pr1 | .pw1 .. | .pr2 | .pw2 .. | .pr3 | .pw3 .. | .pr4 | .pw4 .. | .pr5 | .pw5Select ..
  | .pw5Reset .. | .pr6 | .pw6 | .pr7 | .pw7 => .cpu
  | .frame => .frameAgent
  | .poweron .. => .platform
  | .snapshot => .persistence
  | .vaddrRam .. | .vaddrRom .. | .vaddrUnmapped1 .. | .vaddrLreg0 .. | .vaddrLreg1 .. | .vaddrUnmapped2 ..
  | .vaddrPal .. | .vaddrUnmapped3 ..
  | .renderText16 .. | .renderText256 .. | .renderTile2 .. | .renderTile4 .. | .renderTile8 .. | .renderBitmap2 ..
  | .renderBitmap4 .. | .renderBitmap8 ..
  | .vread .. | .vwrite .. | .advance .. | .props .. | .applyOffset .. | .render .. | .composite ..
  | .paletteLookup .. | .frameBufferWrite .. | .reset => .block

/-- The moves of the surrounding machine: "port transactions, `FRAME`, `POWERON`, `SNAPSHOT`" (00_scope.md R12). -/
def isHostMove (i : Instr) : Bool := agentOf i != .block

/-- Whether an operation is `POWERON`, the platform's only one (00_scope.md R9). -/
def isPowerOn (i : Instr) : Bool := agentOf i == .platform

/-- Where the next request comes from: the surrounding machine's moves, or the operation looked at by itself (log 6). -/
inductive Source where
  | outside
  | alone
  deriving DecidableEq, Repr

/-- The next request, where it comes from, and the state without it. -/
def takeRequest (s : State) : Option (Source × Request × State) :=
  match s.alone with
  | some r => some (.alone, r, { s with alone := none })
  | none =>
    match s.pending with
    | [] => none
    | r :: rest => some (.outside, r, { s with pending := rest })

/-- Why the hardware has no step that performs an operation so asked for: the outside starts only its own moves (00_scope.md
R12; log 6), `POWERON` comes once and before anything else (R9; log 42), with parameters that meet R6 (log 15). -/
def objection (poweredOn : Bool) (src : Source) (i : Instr) : Option Refusal :=
  if isHostMove i = decide (src = .alone) then some .wrongAgent
  else if isPowerOn i && poweredOn then some .alreadyPoweredOn
  else if !isPowerOn i && !poweredOn then some .notPoweredOn
  else if i.wellFormed then none
  else some .parametersBreakR6

/-- The operation a request asks for, or the refusal of what is no step of the hardware (00_scope.md R9, R11, R12). -/
def acceptRequest (poweredOn : Bool) (src : Source) (r : Request) : Except Refusal Instr :=
  match decode r with
  | .error e => .error (.notAnOperation e)
  | .ok i =>
    match objection poweredOn src i with
    | some e => .error e
    | none => .ok i

end Sys2Proof.Machine
end

