-- ==== Sys2Proof/Machine/Ports.lean ====
section
/-! DEFINITION. The seventeen port transactions (spec/41_io_ports.md). -/

namespace Sys2Proof.Machine

/-- What a meaning answers. -/
abbrev Outcome := Host.Outcome State Fault Refusal

/-- `PR 0` (R152). -/
def execPr0 (s : State) : Outcome := .next (s.give (.byte (window0 s)))
/-- `PW 0, v` (R153). -/
def execPw0 (step addrH : BitVec 4) (s : State) : Outcome := .next ((setWindow0 s step addrH).give .none)
/-- `PR 1` (R154). -/
def execPr1 (s : State) : Outcome := .next (s.give (.byte (window1 s)))
/-- `PW 1, v` (R155). -/
def execPw1 (addrM : Byte) (s : State) : Outcome := .next ((setWindow1 s addrM).give .none)
/-- `PR 2` (R156). -/
def execPr2 (s : State) : Outcome := .next (s.give (.byte (window2 s)))
/-- `PW 2, v` (R157). -/
def execPw2 (addrL : Byte) (s : State) : Outcome := .next ((setWindow2 s addrL).give .none)
/-- `PR 3` (R158): pointer 0, whatever `SEL` is (R151). -/
def execPr3 (s : State) : Outcome := .next (dataPortRead s 0)
/-- `PW 3, v` (R159): pointer 0, whatever `SEL` is (R151). -/
def execPw3 (data : Byte) (s : State) : Outcome := .next (dataPortWrite s 0 data)
/-- `PR 4` (R160): pointer 1, whatever `SEL` is (R151). -/
def execPr4 (s : State) : Outcome := .next (dataPortRead s 1)
/-- `PW 4, v` (R161): pointer 1, whatever `SEL` is (R151). -/
def execPw4 (data : Byte) (s : State) : Outcome := .next (dataPortWrite s 1 data)
/-- `PR 5` (R170): the selector, bits 7:1 zero (D22, log 30). -/
def execPr5 (s : State) : Outcome := .next (s.give (.byte (s.sel.setWidth 8)))
/-- `PW 5, v` with bit 7 clear (R171): `SEL <- v[0]`. -/
def execPw5Select (addrsel : BitVec 1) (s : State) : Outcome := .next ((s.setSel addrsel).give .none)
/-- `PW 5, v` with bit 7 set (R171): `Reset()`, then `SEL <- v[0]`. -/
def execPw5Reset (addrsel : BitVec 1) (s : State) : Outcome :=
  .next (((controllerReset s).setSel addrsel).give .none)
/-- `PR 6` (R172). -/
def execPr6 (s : State) : Outcome := .next (s.give (.byte 0x00))
/-- `PW 6, v` (R173). -/
def execPw6 (s : State) : Outcome := .next (s.give .none)
/-- `PR 7` (R174). -/
def execPr7 (s : State) : Outcome := .next (s.give (.byte 0x00))
/-- `PW 7, v` (R175). -/
def execPw7 (s : State) : Outcome := .next (s.give .none)

end Sys2Proof.Machine
end

