-- ==== Sys2Proof/Machine/TileRenderer.lean ====
section
/-! DEFINITION. The text and tile modes, 0 to 4 (spec/43_tile_renderer.md). A pixel function takes the layer's registers
and the fetch `VREAD`, the only state it reads (R200). -/

namespace Sys2Proof.Machine

/-- What a text mode knows of a pixel up to the tile data fetch (R220): the cell's two bytes, the tile data byte, and the
local column. -/
structure TextPixel where
  byte0 : Nat
  byte1 : Nat
  xx : Nat
  s : Nat
  deriving DecidableEq, Repr

/-- The part that modes 0 and 1 share (R220): tiles are 8 x 8 at 1 bpp. -/
def textPixel (r : LayerRegs) (fetch : Nat → Byte) (x y : Nat) : TextPixel :=
  let P := propsOf r
  let ex := wrapped (scaled x P.hscale) P.hscroll (P.mapw * 8)
  let ey := wrapped (scaled y P.vscale) P.vscroll (P.maph * 8)
  let col := ex / 8
  let xx := ex % 8
  let row := ey / 8
  let yy := ey % 8
  let ma := mapCellAddr P.mapBase P.mapw row col
  let byte0 := (fetch ma).toNat
  let byte1 := (fetch (ma + 1)).toNat
  { byte0, byte1, xx, s := (fetch (P.tileBase + (byte0 * 8 + yy))).toNat }

/-- `RenderText16` (R220). -/
def renderText16 (r : LayerRegs) (fetch : Nat → Byte) (x y : Nat) : Nat :=
  let p := textPixel r fetch x y
  extract1 p.s p.xx (cellFg16 p.byte1) (cellBg16 p.byte1)

/-- `RenderText256` (R221). -/
def renderText256 (r : LayerRegs) (fetch : Nat → Byte) (x y : Nat) : Nat :=
  let p := textPixel r fetch x y
  extract1 p.s p.xx p.byte1 cellBg256

/-- What a tile mode knows of a pixel up to the tile data offset (R222): tile index, flipped local coordinate, palette
sub-offset. -/
structure TilePixel where
  idx : Nat
  xx : Nat
  yy : Nat
  palOff : Nat
  deriving DecidableEq, Repr

/-- The part that modes 2, 3 and 4 share (R222). -/
def tilePixel (r : LayerRegs) (fetch : Nat → Byte) (x y : Nat) : TilePixel :=
  let P := propsOf r
  let ex := wrapped (scaled x P.hscale) P.hscroll (P.mapw * P.tilew)
  let ey := wrapped (scaled y P.vscale) P.vscroll (P.maph * P.tileh)
  let col := ex / P.tilew
  let xx0 := ex % P.tilew
  let row := ey / P.tileh
  let yy0 := ey % P.tileh
  let ma := mapCellAddr P.mapBase P.mapw row col
  let byte0 := (fetch ma).toNat
  let byte1 := (fetch (ma + 1)).toNat
  { idx := cellTileIndex byte0 byte1
    xx := flipped (cellHflip byte1) P.tilew xx0
    yy := flipped (cellVflip byte1) P.tileh yy0
    palOff := cellPalOff byte1 }

/-- The tile data byte of a pixel at a depth (R212, R213). -/
def tileByte (r : LayerRegs) (fetch : Nat → Byte) (bpp : Nat) (p : TilePixel) : Nat :=
  let P := propsOf r
  (fetch (P.tileBase + tileOffset p.idx P.tileSize P.tilew bpp p.xx p.yy)).toNat

/-- `RenderTile2` (R222). -/
def renderTile2 (r : LayerRegs) (fetch : Nat → Byte) (x y : Nat) : Nat :=
  let p := tilePixel r fetch x y
  applyOffset (extract2 (tileByte r fetch 2 p) p.xx) p.palOff

/-- `RenderTile4` (R223). -/
def renderTile4 (r : LayerRegs) (fetch : Nat → Byte) (x y : Nat) : Nat :=
  let p := tilePixel r fetch x y
  applyOffset (extract4 (tileByte r fetch 4 p) p.xx) p.palOff

/-- `RenderTile8` (R224). -/
def renderTile8 (r : LayerRegs) (fetch : Nat → Byte) (x y : Nat) : Nat :=
  let p := tilePixel r fetch x y
  applyOffset (tileByte r fetch 8 p) p.palOff

/-- The operation that answers with a pixel function's colour index on layer `L`. -/
def answerPixel (f : LayerRegs → (Nat → Byte) → Nat → Nat → Nat) (L : LayerId) (x : ScreenX) (y : ScreenY)
    (s : State) : State :=
  s.give (.index (f (s.lr.get L) (vread s) x.val y.val))

/-- `RenderText16(L, x, y)` (R220; log 10 for a layer in another mode). -/
def execRenderText16 (L : LayerId) (x : ScreenX) (y : ScreenY) (s : State) : Outcome :=
  .next (answerPixel renderText16 L x y s)
/-- `RenderText256(L, x, y)` (R221; log 10). -/
def execRenderText256 (L : LayerId) (x : ScreenX) (y : ScreenY) (s : State) : Outcome :=
  .next (answerPixel renderText256 L x y s)
/-- `RenderTile2(L, x, y)` (R222; log 10). -/
def execRenderTile2 (L : LayerId) (x : ScreenX) (y : ScreenY) (s : State) : Outcome :=
  .next (answerPixel renderTile2 L x y s)
/-- `RenderTile4(L, x, y)` (R223; log 10). -/
def execRenderTile4 (L : LayerId) (x : ScreenX) (y : ScreenY) (s : State) : Outcome :=
  .next (answerPixel renderTile4 L x y s)
/-- `RenderTile8(L, x, y)` (R224; log 10). -/
def execRenderTile8 (L : LayerId) (x : ScreenX) (y : ScreenY) (s : State) : Outcome :=
  .next (answerPixel renderTile8 L x y s)

end Sys2Proof.Machine
end

