-- ==== Sys2Proof/Machine/BitmapRenderer.lean ====
section
/-! DEFINITION. The bitmap modes, 5 to 7 (spec/44_bitmap_renderer.md): one tile as large as the screen, no map, no
scrolling, no flips (R230 to R233). -/

namespace Sys2Proof.Machine

/-- The column of a bitmap pixel (R231, R232). -/
def bitmapColumn (r : LayerRegs) (x : Nat) : Nat := scaled x (propsOf r).hscale

/-- The bitmap data byte of a pixel at a depth (R231 to R235). -/
def bitmapByte (r : LayerRegs) (fetch : Nat → Byte) (bpp x y : Nat) : Nat :=
  let P := propsOf r
  let xx := bitmapColumn r x
  let yy := scaled y P.vscale
  (fetch (P.tileBase + bitmapOffset P.stride bpp xx yy)).toNat

/-- `RenderBitmap2` (R238). -/
def renderBitmap2 (r : LayerRegs) (fetch : Nat → Byte) (x y : Nat) : Nat :=
  applyOffset (extract2 (bitmapByte r fetch 2 x y) (bitmapColumn r x)) (propsOf r).palOffset

/-- `RenderBitmap4` (R239). -/
def renderBitmap4 (r : LayerRegs) (fetch : Nat → Byte) (x y : Nat) : Nat :=
  applyOffset (extract4 (bitmapByte r fetch 4 x y) (bitmapColumn r x)) (propsOf r).palOffset

/-- `RenderBitmap8` (R240). -/
def renderBitmap8 (r : LayerRegs) (fetch : Nat → Byte) (x y : Nat) : Nat :=
  applyOffset (bitmapByte r fetch 8 x y) (propsOf r).palOffset

/-- `RenderBitmap2(L, x, y)` (R238; log 10 for a layer in another mode). -/
def execRenderBitmap2 (L : LayerId) (x : ScreenX) (y : ScreenY) (s : State) : Outcome :=
  .next (answerPixel renderBitmap2 L x y s)
/-- `RenderBitmap4(L, x, y)` (R239; log 10). -/
def execRenderBitmap4 (L : LayerId) (x : ScreenX) (y : ScreenY) (s : State) : Outcome :=
  .next (answerPixel renderBitmap4 L x y s)
/-- `RenderBitmap8(L, x, y)` (R240; log 10). -/
def execRenderBitmap8 (L : LayerId) (x : ScreenX) (y : ScreenY) (s : State) : Outcome :=
  .next (answerPixel renderBitmap8 L x y s)

end Sys2Proof.Machine
end

