-- ==== Sys2Proof/Machine/Compositor.lean ====
section
/-! DEFINITION. The enable gate and mode dispatch, the layer merge, the palette lookup, the frame buffer writer and the
frame pass (spec/45_compositor.md), with the operations of these blocks and of the layer register decode. -/

namespace Sys2Proof.Machine

/-- `Render` on a layer's registers (R245): 0 for a disabled layer, else the function of its mode. -/
def renderLayer (r : LayerRegs) (fetch : Nat → Byte) (x y : Nat) : Nat :=
  if layerEnabled r = false then 0
  else match modeOf r with
    | .text16 => renderText16 r fetch x y
    | .text256 => renderText256 r fetch x y
    | .tile2 => renderTile2 r fetch x y
    | .tile4 => renderTile4 r fetch x y
    | .tile8 => renderTile8 r fetch x y
    | .bitmap2 => renderBitmap2 r fetch x y
    | .bitmap4 => renderBitmap4 r fetch x y
    | .bitmap8 => renderBitmap8 r fetch x y

/-- `Render(L, x, y)` (R245). -/
def renderPixel (s : State) (L : LayerId) (x y : Nat) : Nat := renderLayer (s.lr.get L) (vread s) x y

/-- `Composite(x, y)` (R248): layer 1 unless it is 0, else layer 0. -/
def compositePixel (s : State) (x y : Nat) : Nat :=
  let c1 := renderPixel s 1 x y
  if c1 ≠ 0 then c1 else renderPixel s 0 x y

/-- `PaletteLookup(i)` (R250): each 4-bit component in the high nibble of a byte. -/
def lookupColour (s : State) (i : Nat) : Colour :=
  let lo := memRead s.pal (2 * i)
  let hi := memRead s.pal (2 * i + 1)
  { n0 := lo.extractLsb' 0 4 ++ 0#4
    n1 := lo.extractLsb' 4 4 ++ 0#4
    n2 := hi.extractLsb' 0 4 ++ 0#4 }

/-- The first byte address of a pixel in the frame buffer (R252, R253). DESIGN CHOICE of the spec: row-major, y = 0 first
(D5, log 26). -/
def pixelBase (x y : Nat) : Nat := Config.fbBytesPerPixel * (y * Config.screenW + x)

/-- The four bytes of a pixel in the frame buffer (R252, R253, R254). DESIGN CHOICE of the spec: the colour bytes in nibble
order, then the pad byte (D3, D4, log 26, log 27). -/
def pixelBytes (c : Colour) (pad : Byte) : List Byte := [c.n0, c.n1, c.n2, pad]

/-- The four cells of a pixel in the frame buffer. -/
def pixelCells (x y : Nat) (c : Colour) (pad : Byte) : List Host.Cell :=
  (List.range' (pixelBase x y) Config.fbBytesPerPixel).zip (pixelBytes c pad)

/-- `FrameBufferWrite(x, y, c)` (R252): four bytes of the frame buffer. -/
def writePixel (s : State) (x y : Nat) (c : Colour) : State :=
  s.setFb ((pixelCells x y c s.params.fbPad).foldl (fun m d => memWrite m d.1 d.2) s.fb)

/-- The colour of a pixel: the palette entry of its composited index. -/
def pixelColour (s : State) (x y : Nat) : Colour := lookupColour s (compositePixel s x y)

/-- The frame buffer of a frame pass (R256): for y = 0 to 479, for x = 0 to 639, the four bytes of the pixel, all computed
from the state at the pass's start (R257). Nothing of the old frame buffer is left (R258). -/
def frameCells (s : State) : Memory :=
  (List.range Config.screenH).flatMap fun y =>
    (List.range Config.screenW).flatMap fun x =>
      memListed (pixelCells x y (pixelColour s x y) s.params.fbPad)

/-- `Props(L)` (42_layer_config.md R195). -/
def execProps (L : LayerId) (s : State) : Outcome := .next (s.give (.props (propsOf (s.lr.get L))))
/-- `ApplyOffset(c0, po)` (43_tile_renderer.md R218). -/
def execApplyOffset (c0 : ColorIndex) (po : Fin 16) (s : State) : Outcome :=
  .next (s.give (.index (applyOffset c0.val po.val)))
/-- `Render(L, x, y)` (R245). -/
def execRender (L : LayerId) (x : ScreenX) (y : ScreenY) (s : State) : Outcome :=
  .next (s.give (.index (renderPixel s L x.val y.val)))
/-- `Composite(x, y)` (R248). -/
def execComposite (x : ScreenX) (y : ScreenY) (s : State) : Outcome :=
  .next (s.give (.index (compositePixel s x.val y.val)))
/-- `PaletteLookup(i)` (R250). -/
def execPaletteLookup (i : ColorIndex) (s : State) : Outcome := .next (s.give (.colour (lookupColour s i.val)))
/-- `FrameBufferWrite(x, y, c)` (R252). -/
def execFrameBufferWrite (x : ScreenX) (y : ScreenY) (c : Colour) (s : State) : Outcome :=
  .next ((writePixel s x.val y.val c).give .none)
/-- `FRAME` (R256). -/
def execFrame (s : State) : Outcome := .next ((s.setFb (frameCells s)).give .none)

end Sys2Proof.Machine
end

