-- ==== Sys2Proof/Machine/System.lean ====
section
/-! DEFINITION. The controller reset, power-on and the snapshot as operations of their own
(spec/70_reset_and_hazards.md R290, R293; spec/60_exceptions.md R281). -/

namespace Sys2Proof.Machine

/-- `RESET` (R290). -/
def execReset (s : State) : Outcome := .next ((controllerReset s).give .none)
/-- `POWERON` (R293; log 15). -/
def execPoweron (p : Config.OpenParams) (s : State) : Outcome := .next ((powerOn s p).give .none)
/-- `SNAPSHOT` (R281): copies of VRAM, palette and layer registers; nothing changes (log 34). -/
def execSnapshot (s : State) : Outcome := .next (s.give (.snapshot s.vram s.pal s.lr))

end Sys2Proof.Machine
end

