-- ==== Sys2Proof/Machine/VideoAddress.lean ====
section
/-! DEFINITION. The eight rows of the video address decode as accesses to their targets, and `VREAD` and `VWRITE` by
address (spec/40_address_space.md). -/

namespace Sys2Proof.Machine

/-- `VRAM[o]` (R132, R133). -/
def execVaddrRam (offset : BitVec 17) (acc : Access) (s : State) : Outcome :=
  .next (accessRegion s (.ram offset.toNat) acc)
/-- `ROM[o]` (R134, R135). -/
def execVaddrRom (offset : BitVec 12) (acc : Access) (s : State) : Outcome :=
  .next (accessRegion s (.rom offset.toNat) acc)
/-- The first unmapped range (R136, R137). -/
def execVaddrUnmapped1 (acc : Access) (s : State) : Outcome := .next (accessRegion s .unmapped acc)
/-- `LR[0][i]` (R138, R139). -/
def execVaddrLreg0 (reg : BitVec 4) (acc : Access) (s : State) : Outcome :=
  .next (accessRegion s (.lreg 0 reg.toFin) acc)
/-- `LR[1][i]` (R138, R139). -/
def execVaddrLreg1 (reg : BitVec 4) (acc : Access) (s : State) : Outcome :=
  .next (accessRegion s (.lreg 1 reg.toFin) acc)
/-- The second unmapped range (R136, R137). -/
def execVaddrUnmapped2 (acc : Access) (s : State) : Outcome := .next (accessRegion s .unmapped acc)
/-- `PAL[o]` (R140, R141). -/
def execVaddrPal (offset : BitVec 9) (acc : Access) (s : State) : Outcome :=
  .next (accessRegion s (.pal offset.toNat) acc)
/-- The third unmapped range (R136, R137). -/
def execVaddrUnmapped3 (acc : Access) (s : State) : Outcome := .next (accessRegion s .unmapped acc)

/-- `VREAD a` (R142). -/
def execVread (a : VAddr) (s : State) : Outcome := .next (s.give (.byte (vread s a.toNat)))
/-- `VWRITE a, v` (R143). -/
def execVwrite (a : VAddr) (v : Byte) (s : State) : Outcome := .next ((vwrite s a.toNat v).give .none)
/-- `Advance(k)` (41_io_ports.md R166). -/
def execAdvance (k : PtrId) (s : State) : Outcome := .next ((advance s k).give .none)

end Sys2Proof.Machine
end

