-- ==== Sys2Proof/Machine/Dispatch.lean ====
section
/-! DEFINITION. One arm per operation of spec/opcode_table.json, in the table's order. -/

namespace Sys2Proof.Machine

def exec (i : Instr) (s : State) : Host.Outcome State Fault Refusal :=
  match i with
  | .pr0 => Sys2Proof.Machine.execPr0 s
  | .pw0 step addrH => Sys2Proof.Machine.execPw0 step addrH s
  | .pr1 => Sys2Proof.Machine.execPr1 s
  | .pw1 addrM => Sys2Proof.Machine.execPw1 addrM s
  | .pr2 => Sys2Proof.Machine.execPr2 s
  | .pw2 addrL => Sys2Proof.Machine.execPw2 addrL s
  | .pr3 => Sys2Proof.Machine.execPr3 s
  | .pw3 data => Sys2Proof.Machine.execPw3 data s
  | .pr4 => Sys2Proof.Machine.execPr4 s
  | .pw4 data => Sys2Proof.Machine.execPw4 data s
  | .pr5 => Sys2Proof.Machine.execPr5 s
  | .pw5Select addrsel => Sys2Proof.Machine.execPw5Select addrsel s
  | .pw5Reset addrsel => Sys2Proof.Machine.execPw5Reset addrsel s
  | .pr6 => Sys2Proof.Machine.execPr6 s
  | .pw6 => Sys2Proof.Machine.execPw6 s
  | .pr7 => Sys2Proof.Machine.execPr7 s
  | .pw7 => Sys2Proof.Machine.execPw7 s
  | .vaddrRam offset acc => Sys2Proof.Machine.execVaddrRam offset acc s
  | .vaddrRom offset acc => Sys2Proof.Machine.execVaddrRom offset acc s
  | .vaddrUnmapped1 acc => Sys2Proof.Machine.execVaddrUnmapped1 acc s
  | .vaddrLreg0 reg acc => Sys2Proof.Machine.execVaddrLreg0 reg acc s
  | .vaddrLreg1 reg acc => Sys2Proof.Machine.execVaddrLreg1 reg acc s
  | .vaddrUnmapped2 acc => Sys2Proof.Machine.execVaddrUnmapped2 acc s
  | .vaddrPal offset acc => Sys2Proof.Machine.execVaddrPal offset acc s
  | .vaddrUnmapped3 acc => Sys2Proof.Machine.execVaddrUnmapped3 acc s
  | .renderText16 L x y => Sys2Proof.Machine.execRenderText16 L x y s
  | .renderText256 L x y => Sys2Proof.Machine.execRenderText256 L x y s
  | .renderTile2 L x y => Sys2Proof.Machine.execRenderTile2 L x y s
  | .renderTile4 L x y => Sys2Proof.Machine.execRenderTile4 L x y s
  | .renderTile8 L x y => Sys2Proof.Machine.execRenderTile8 L x y s
  | .renderBitmap2 L x y => Sys2Proof.Machine.execRenderBitmap2 L x y s
  | .renderBitmap4 L x y => Sys2Proof.Machine.execRenderBitmap4 L x y s
  | .renderBitmap8 L x y => Sys2Proof.Machine.execRenderBitmap8 L x y s
  | .vread a => Sys2Proof.Machine.execVread a s
  | .vwrite a v => Sys2Proof.Machine.execVwrite a v s
  | .advance k => Sys2Proof.Machine.execAdvance k s
  | .props L => Sys2Proof.Machine.execProps L s
  | .applyOffset c0 po => Sys2Proof.Machine.execApplyOffset c0 po s
  | .render L x y => Sys2Proof.Machine.execRender L x y s
  | .composite x y => Sys2Proof.Machine.execComposite x y s
  | .paletteLookup idx => Sys2Proof.Machine.execPaletteLookup idx s
  | .frameBufferWrite x y c => Sys2Proof.Machine.execFrameBufferWrite x y c s
  | .frame => Sys2Proof.Machine.execFrame s
  | .reset => Sys2Proof.Machine.execReset s
  | .poweron p => Sys2Proof.Machine.execPoweron p s
  | .snapshot => Sys2Proof.Machine.execSnapshot s

end Sys2Proof.Machine
end

