-- ==== Sys2Proof/Machine/Step.lean ====
section
/-! DEFINITION. One step: the next request's operation, run on the state without that request
(spec/00_scope.md R9: one step per operation, whole operations only). -/

namespace Sys2Proof.Machine

/-- One step. With nothing requested the block holds its state (60_exceptions.md R283; log 3). -/
def step (s : State) : Host.Outcome State Fault Refusal :=
  match takeRequest s with
  | none => .next s
  | some (src, r, s') =>
    match acceptRequest s.poweredOn src r with
    | .error e => .refused e
    | .ok i => exec i s'

/-- The state, powered on, with the request for a word of spec/opcode_table.json placed so that the next step performs it
(log 4): a port transaction first among the moves of the surrounding machine, an address access or a mode's function as the
operation looked at by itself. A word of no group changes nothing. -/
def State.withFetchWord (s : State) (nbits w : Nat) : State :=
  match tableRequest nbits w with
  | none => s
  | some (.coded .port bytes) => { s with pending := .coded .port bytes :: s.pending, alone := none, poweredOn := true }
  | some r => { s with alone := some r, poweredOn := true }

end Sys2Proof.Machine
end

