-- ==== Sys2Proof/Safety.lean ====
section
/-! DEFINITION. What holds of every state that operations can reach, and what a safe step is, in the terms the
statements use. -/

namespace Sys2Proof.Machine

/-- The stores are in canonical form and hold no address outside their sizes (00_scope.md R5), and the parameters meet
00_scope.md R6. -/
abbrev State.Inv (s : State) : Prop :=
  Memory.wf Config.vramSize s.vram ∧ Memory.wf Config.romSize s.rom ∧ Memory.wf Config.palSize s.pal ∧
  Memory.wf Config.fbSize s.fb ∧ ResetParamsOk s.params

/-- A step that does not stop: it answers a next state. -/
def Completes (o : Host.Outcome State Fault Refusal) : Prop := ∃ t, o = .next t

end Sys2Proof.Machine
end

