-- ==== Sys2Proof/Certificates/Slice0/Obligations.lean ====
section
/-! DEFINITION. The statements about the machine, for the provers. Each docstring names the rule of spec/ it formalises,
and, where the spec marks a clause as its own decision, the decision and the log entry. -/

open Sys2Proof Sys2Proof.Machine

/-! ## Requests, decoding and the step -/

/-- Words written out from 30_encoding.md R90, R95, R96 and from the programs P1 to P5 of 95_test_vectors.md decode to the
operations they stand for. A port word fixes its whole operation; an address word fixes its row and offset, a mode word its
pixel function. That the operation of an address word is a read (the decode does not depend on the direction, R131) and that
a mode word's layer and coordinates are 0 is the model's own filler, which `tableRequest` puts where the spec's word has no
bits (logs 5, 7). -/
def Obligations.SpecWordsDecodeToTheirOperations : Prop :=
  decodeTableWord 16 0xD00 = some (.pw5Select 0) ∧ decodeTableWord 16 0xD81 = some (.pw5Reset 1) ∧
  decodeTableWord 16 0x8F7 = some (.pw0 15 7) ∧ decodeTableWord 16 0x90F = some (.pw1 0x0F) ∧
  decodeTableWord 16 0xAF8 = some (.pw2 0xF8) ∧ decodeTableWord 16 0x300 = some .pr3 ∧
  decodeTableWord 16 0xBA6 = some (.pw3 0xA6) ∧ decodeTableWord 16 0xCE1 = some (.pw4 0xE1) ∧
  decodeTableWord 24 0x01000 = some (.vaddrRam 0x1000 .read) ∧
  decodeTableWord 24 0x20208 = some (.vaddrRom 0x208 .read) ∧
  decodeTableWord 24 0x40005 = some (.vaddrLreg0 5 .read) ∧
  decodeTableWord 24 0x40203 = some (.vaddrPal 3 .read) ∧
  decodeTableWord 8 0b011 = some (.renderTile4 0 0 0) ∧ decodeTableWord 8 0b111 = some (.renderBitmap8 0 0 0)

/-- Decoding the request of any operation gives the operation back, with every operand at every value. -/
def Obligations.DecodeOfEncodeIsTheOperation : Prop :=
  ∀ i : Instr, decode (encode i) = .ok i

/-- Every 12-bit port pattern is a port transaction, and its don't-care bits change nothing (30_encoding.md R90, R116,
R117): a read ignores the data byte, `PW 5` ignores bits 6:1, `PW 6` and `PW 7` ignore all eight (log 8). -/
def Obligations.EveryPortPatternIsATransaction : Prop :=
  (∀ (dp : BitVec 4) (v : Byte), ∃ i, decode (encodePort dp v) = .ok i ∧ i.format = .port) ∧
  (∀ (dp : BitVec 4) (v : Byte), (dp.toNat ≤ 7 ∨ 14 ≤ dp.toNat) → decode (encodePort dp v) = decode (encodePort dp 0)) ∧
  (∀ v w : Byte, v.getLsbD 7 = w.getLsbD 7 → v.getLsbD 0 = w.getLsbD 0 →
    decode (encodePort 0b1101 v) = decode (encodePort 0b1101 w))

/-- The patterns of 30_encoding.md R95, tried in order, select exactly the printed ranges. -/
def Obligations.AddressPatternsSelectThePrintedRanges : Prop :=
  ∀ (a : VAddr) (acc : Access),
    (a.toNat ≤ 0x1FFFF → ∃ o, decodeVaddr a acc = .vaddrRam o acc ∧ o.toNat = a.toNat) ∧
    (0x20000 ≤ a.toNat → a.toNat ≤ 0x20FFF → ∃ o, decodeVaddr a acc = .vaddrRom o acc ∧ o.toNat = a.toNat - 0x20000) ∧
    (0x21000 ≤ a.toNat → a.toNat ≤ 0x3FFFF → decodeVaddr a acc = .vaddrUnmapped1 acc) ∧
    (0x40000 ≤ a.toNat → a.toNat ≤ 0x4000F → ∃ r, decodeVaddr a acc = .vaddrLreg0 r acc ∧ r.toNat = a.toNat - 0x40000) ∧
    (0x40010 ≤ a.toNat → a.toNat ≤ 0x4001F → ∃ r, decodeVaddr a acc = .vaddrLreg1 r acc ∧ r.toNat = a.toNat - 0x40010) ∧
    (0x40020 ≤ a.toNat → a.toNat ≤ 0x401FF → decodeVaddr a acc = .vaddrUnmapped2 acc) ∧
    (0x40200 ≤ a.toNat → a.toNat ≤ 0x403FF → ∃ o, decodeVaddr a acc = .vaddrPal o acc ∧ o.toNat = a.toNat - 0x40200) ∧
    (0x40400 ≤ a.toNat → decodeVaddr a acc = .vaddrUnmapped3 acc)

/-- A step whose request decodes to a well-formed operation runs that operation on the state without the request, and does
nothing else: a move of the surrounding machine from `pending`, an operation of the block's own from `alone` (log 6); `POWERON`
before power-on, every other operation after it (00_scope.md R9, log 42). -/
def Obligations.StepRunsTheDecodedOperation : Prop :=
  ∀ (s : State) (r : Request) (i : Instr), decode r = .ok i → i.wellFormed = true → s.poweredOn = !isPowerOn i →
    (isHostMove i = true → s.alone = none → ∀ rest, s.pending = r :: rest → step s = exec i { s with pending := rest }) ∧
    (isHostMove i = false → s.alone = some r → step s = exec i { s with alone := none })

/-- Any well-formed operation, requested by its encoding where its agent requests it (log 6), is what the next step runs:
`POWERON` before power-on, every other operation after it (log 42). -/
def Obligations.StepRunsAnyEncodedOperation : Prop :=
  ∀ (s : State) (i : Instr) (rest : List Request), i.wellFormed = true → s.poweredOn = !isPowerOn i →
    (isHostMove i = true →
      step { s with alone := none, pending := encode i :: rest } = exec i { s with alone := none, pending := rest }) ∧
    (isHostMove i = false → step { s with alone := some (encode i) } = exec i { s with alone := none })

/-- With nothing requested a step leaves the state as it is: "Between operations it holds its state" (60_exceptions.md
R283). That a step is then taken at all is the model's choice (log 3). -/
def Obligations.StepWithNothingRequestedHoldsTheState : Prop :=
  ∀ s : State, s.pending = [] → s.alone = none → step s = .next s

/-- A layer above 1, a column above 639 or a row above 479 is no operation of the hardware (92_eei_decisions.md D26): the
step refuses the request by name. The bytes of a request are the model's own (log 5). -/
def Obligations.OperandsOutOfRangeAreRefused : Prop :=
  ∀ (s : State) (m : BitVec 3) (l x0 x1 y0 y1 : Byte),
    s.alone = some (.coded .mode [0#5 ++ m, l, x0, x1, y0, y1]) → s.poweredOn = true →
    (2 ≤ l.toNat → step s = .refused (.notAnOperation .layerOutOfRange)) ∧
    (l.toNat < 2 → 640 ≤ x0.toNat + 256 * x1.toNat → step s = .refused (.notAnOperation .xOutOfRange)) ∧
    (l.toNat < 2 → x0.toNat + 256 * x1.toNat < 640 → 480 ≤ y0.toNat + 256 * y1.toNat →
      step s = .refused (.notAnOperation .yOutOfRange)) ∧
    (l.toNat < 2 → x0.toNat + 256 * x1.toNat < 640 → y0.toNat + 256 * y1.toNat < 480 → ∃ t, step s = .next t)

/-- A `POWERON` of a block that is not powered on is performed exactly when its parameters meet 00_scope.md R6; otherwise the
step refuses it by name (the model's choice, log 15). A second `POWERON` is refused by name: it "happens once"
(70_reset_and_hazards.md R293; the refusal is the model's choice, log 42). -/
def Obligations.PowerOnNeedsTheParameterConstraints : Prop :=
  ∀ (s : State) (rest : List Request) (p : Config.OpenParams), s.alone = none → s.pending = .named (.poweron p) :: rest →
    (s.poweredOn = false → OpenParamsOk p → step s = exec (.poweron p) { s with pending := rest }) ∧
    (s.poweredOn = false → ¬ OpenParamsOk p → step s = .refused .parametersBreakR6) ∧
    (s.poweredOn = true → step s = .refused .alreadyPoweredOn)

/-! ## Ports -/

/-- `PR 0`, `PR 1`, `PR 2` (41_io_ports.md R152, R154, R156): the bytes of the pointer `SEL` designates; nothing changes. -/
def Obligations.WindowReadsShowTheSelectedPointer : Prop :=
  ∀ s : State, let k : PtrId := ⟨s.sel.toNat, s.sel.isLt⟩
    (∃ b : Byte, b.toNat = 16 * (s.inc.get k).toNat + (s.ptr.get k).toNat / 2 ^ 16 ∧
      exec .pr0 s = .next { s with answer := .byte b }) ∧
    (∃ b : Byte, b.toNat = (s.ptr.get k).toNat / 2 ^ 8 % 2 ^ 8 ∧ exec .pr1 s = .next { s with answer := .byte b }) ∧
    (∃ b : Byte, b.toNat = (s.ptr.get k).toNat % 2 ^ 8 ∧ exec .pr2 s = .next { s with answer := .byte b })

/-- `PW 0`, `PW 1`, `PW 2` (41_io_ports.md R153, R155, R157): the written bits of the pointer `SEL` designates change, its
other bits and everything else stay. -/
def Obligations.WindowWritesSetTheSelectedPointer : Prop :=
  ∀ s : State, let k : PtrId := ⟨s.sel.toNat, s.sel.isLt⟩
    (∀ step addrH : BitVec 4, ∃ p : VAddr, p.toNat = addrH.toNat * 2 ^ 16 + (s.ptr.get k).toNat % 2 ^ 16 ∧
      exec (.pw0 step addrH) s =
        .next { s with inc := s.inc.set k step, ptr := s.ptr.set k p, answer := .none }) ∧
    (∀ v : Byte, ∃ p : VAddr,
      p.toNat = (s.ptr.get k).toNat / 2 ^ 16 * 2 ^ 16 + v.toNat * 2 ^ 8 + (s.ptr.get k).toNat % 2 ^ 8 ∧
      exec (.pw1 v) s = .next { s with ptr := s.ptr.set k p, answer := .none }) ∧
    (∀ v : Byte, ∃ p : VAddr, p.toNat = (s.ptr.get k).toNat / 2 ^ 8 * 2 ^ 8 + v.toNat ∧
      exec (.pw2 v) s = .next { s with ptr := s.ptr.set k p, answer := .none })

/-- What was written through ports 0, 1, 2 and 5 is read back (41_io_ports.md R177). -/
def Obligations.PortWritesReadBack : Prop :=
  ∀ s : State,
    (∀ step addrH : BitVec 4, ∃ t, exec (.pw0 step addrH) s = .next t ∧
      exec .pr0 t = .next { t with answer := .byte (step ++ addrH) }) ∧
    (∀ v : Byte, ∃ t, exec (.pw1 v) s = .next t ∧ exec .pr1 t = .next { t with answer := .byte v }) ∧
    (∀ v : Byte, ∃ t, exec (.pw2 v) s = .next t ∧ exec .pr2 t = .next { t with answer := .byte v }) ∧
    (∀ b : BitVec 1, ∃ t, exec (.pw5Select b) s = .next t ∧ exec .pr5 t = .next { t with answer := .byte (0#7 ++ b) }) ∧
    (∀ b : BitVec 1, ∃ t, exec (.pw5Reset b) s = .next t ∧ exec .pr5 t = .next { t with answer := .byte (0#7 ++ b) })

/-- `PR 3` and `PR 4` (41_io_ports.md R158, R160): the byte at the pointer's value before the transaction, then the pointer
moves by its step modulo 2^20; nothing else changes. -/
def Obligations.DataPortReadsAnswerThenAdvance : Prop :=
  ∀ s : State,
    (∃ p : VAddr, p.toNat = ((s.ptr.get 0).toNat + (s.inc.get 0).toNat) % 2 ^ 20 ∧
      exec .pr3 s = .next { s with ptr := s.ptr.set 0 p, answer := .byte (vread s (s.ptr.get 0).toNat) }) ∧
    (∃ p : VAddr, p.toNat = ((s.ptr.get 1).toNat + (s.inc.get 1).toNat) % 2 ^ 20 ∧
      exec .pr4 s = .next { s with ptr := s.ptr.set 1 p, answer := .byte (vread s (s.ptr.get 1).toNat) })

/-- `PW 3` and `PW 4` (41_io_ports.md R159, R161): `VWRITE` at the pointer's value before the transaction, then the pointer
moves by its step modulo 2^20, whatever the write stored (R165); nothing else changes. -/
def Obligations.DataPortWritesStoreThenAdvance : Prop :=
  ∀ (s : State) (v : Byte),
    (∃ p : VAddr, p.toNat = ((s.ptr.get 0).toNat + (s.inc.get 0).toNat) % 2 ^ 20 ∧
      exec (.pw3 v) s = .next { vwrite s (s.ptr.get 0).toNat v with ptr := s.ptr.set 0 p, answer := .none }) ∧
    (∃ p : VAddr, p.toNat = ((s.ptr.get 1).toNat + (s.inc.get 1).toNat) % 2 ^ 20 ∧
      exec (.pw4 v) s = .next { vwrite s (s.ptr.get 1).toNat v with ptr := s.ptr.set 1 p, answer := .none })

/-- A transaction on port 3 neither reads nor writes `PTR[1]` or `INC[1]`, one on port 4 neither `PTR[0]` nor `INC[0]`; a
byte written through one data port, at any address that stores, is read through the other (41_io_ports.md R162). -/
def Obligations.DataPortsAreIndependentButShareTheSpace : Prop :=
  (∀ (s t : State) (i : Instr) (p : VAddr) (n : BitVec 4), (i = .pr3 ∨ ∃ v, i = .pw3 v) → exec i s = .next t →
    t.ptr.get 1 = s.ptr.get 1 ∧ t.inc.get 1 = s.inc.get 1 ∧
    exec i { s with ptr := s.ptr.set 1 p, inc := s.inc.set 1 n } =
      .next { t with ptr := t.ptr.set 1 p, inc := t.inc.set 1 n }) ∧
  (∀ (s t : State) (i : Instr) (p : VAddr) (n : BitVec 4), (i = .pr4 ∨ ∃ v, i = .pw4 v) → exec i s = .next t →
    t.ptr.get 0 = s.ptr.get 0 ∧ t.inc.get 0 = s.inc.get 0 ∧
    exec i { s with ptr := s.ptr.set 0 p, inc := s.inc.set 0 n } =
      .next { t with ptr := t.ptr.set 0 p, inc := t.inc.set 0 n }) ∧
  (∀ (s t u : State) (v : Byte) (a : Nat), (s.ptr.get 0).toNat = a → (s.ptr.get 1).toNat = a →
    (a ≤ 0x1FFFF ∨ (0x40000 ≤ a ∧ a ≤ 0x4001F) ∨ (0x40200 ≤ a ∧ a ≤ 0x403FF)) →
    (exec (.pw3 v) s = .next t → exec .pr4 t = .next u → u.answer = .byte v) ∧
    (exec (.pw4 v) s = .next t → exec .pr3 t = .next u → u.answer = .byte v))

/-- "Ports 3 and 4 do not look at `SEL`" (41_io_ports.md R151; 90_conflicts.md C3). -/
def Obligations.DataPortsIgnoreTheSelector : Prop :=
  ∀ (s t : State) (i : Instr) (b : BitVec 1),
    (i = .pr3 ∨ i = .pr4 ∨ (∃ v, i = .pw3 v) ∨ ∃ v, i = .pw4 v) → exec i s = .next t →
    t.sel = s.sel ∧ exec i { s with sel := b } = .next { t with sel := b }

/-- `Advance(k)` (41_io_ports.md R166): the pointer moves by `INC[k]` modulo 2^20, nothing else changes. -/
def Obligations.AdvanceMovesByTheStepModulo : Prop :=
  ∀ (s : State) (k : PtrId), ∃ p : VAddr,
    p.toNat = ((s.ptr.get k).toNat + (s.inc.get k).toNat) % 2 ^ 20 ∧
    exec (.advance k) s = .next { s with ptr := s.ptr.set k p, answer := .none }

/-- `PR 5` answers `SEL` as a byte, its upper seven bits zero (the zero is the spec's decision D22, log 30). -/
def Obligations.PortFiveReadsTheSelector : Prop :=
  ∀ s : State, ∃ b : Byte, b.toNat = s.sel.toNat ∧ exec .pr5 s = .next { s with answer := .byte b }

/-- `PW 5, v` (41_io_ports.md R171): `SEL` becomes bit 0; with bit 7 set the layer registers and the palette get their reset
values and both pointers and steps are cleared. That `VRAM` and `FB` stay is the spec's decision (D20, D35, log 28). -/
def Obligations.PortFiveSelectsAndResets : Prop :=
  ∀ (s : State) (b : BitVec 1),
    exec (.pw5Select b) s = .next { s with sel := b, answer := .none } ∧
    exec (.pw5Reset b) s = .next { s with
      lr := s.params.layerReset, pal := s.params.paletteReset, ptr := #v[0, 0], inc := #v[0, 0], sel := b,
      answer := .none }

/-- Ports 6 and 7 (41_io_ports.md R172 to R175): a read returns 0, a write of any byte is ignored. -/
def Obligations.DummyPortsReadZeroAndIgnoreWrites : Prop :=
  ∀ (s : State) (v : Byte),
    exec .pr6 s = .next { s with answer := .byte 0 } ∧ exec .pr7 s = .next { s with answer := .byte 0 } ∧
    (∃ i, decode (encodePort 0b1110 v) = .ok i ∧ i = .pw6 ∧ exec i s = .next { s with answer := .none }) ∧
    (∃ i, decode (encodePort 0b1111 v) = .ok i ∧ i = .pw7 ∧ exec i s = .next { s with answer := .none })

/-! ## The video address decoder -/

/-- `VREAD a` in every region (40_address_space.md R132, R134, R136, R138, R140, R142); nothing changes. -/
def Obligations.VreadAnswersTheByteOfTheRegion : Prop :=
  ∀ (s : State) (a : VAddr), ∃ b : Byte, exec (.vread a) s = .next { s with answer := .byte b } ∧
    (a.toNat ≤ 0x1FFFF → b = memRead s.vram a.toNat) ∧
    (0x20000 ≤ a.toNat → a.toNat ≤ 0x20FFF → b = memRead s.rom (a.toNat - 0x20000)) ∧
    (0x21000 ≤ a.toNat → a.toNat ≤ 0x3FFFF → b = 0xFF) ∧
    (∀ (L : LayerId) (i : Fin 16), a.toNat = 0x40000 + 16 * L.val + i.val → b = (s.lr.get L).get i) ∧
    (0x40020 ≤ a.toNat → a.toNat ≤ 0x401FF → b = 0xFF) ∧
    (0x40200 ≤ a.toNat → a.toNat ≤ 0x403FF → b = memRead s.pal (a.toNat - 0x40200)) ∧
    (0x40400 ≤ a.toNat → b = 0xFF)

/-- `VWRITE a, v` in every region (40_address_space.md R133, R135, R137, R139, R141, R143): at most the one byte changes, and
only in VRAM, a layer register or the palette. That all eight bits of every register and palette byte are stored is the
spec's decision (D23, log 31). -/
def Obligations.VwriteStoresTheByteOfTheRegion : Prop :=
  ∀ (s : State) (a : VAddr) (v : Byte), ∃ t, exec (.vwrite a v) s = .next t ∧
    t = { s with vram := t.vram, lr := t.lr, pal := t.pal, answer := .none } ∧
    (∀ o, memRead t.vram o = if o = a.toNat ∧ a.toNat ≤ 0x1FFFF then v else memRead s.vram o) ∧
    (∀ (L : LayerId) (i : Fin 16),
      (t.lr.get L).get i = if a.toNat = 0x40000 + 16 * L.val + i.val then v else (s.lr.get L).get i) ∧
    (∀ o, memRead t.pal o = if a.toNat = 0x40200 + o ∧ o ≤ 0x1FF then v else memRead s.pal o)

/-- Read after write, and no aliasing (40_address_space.md R144). That every layer register and palette byte reads back all
eight written bits is the spec's decision (D23, log 31). -/
def Obligations.ReadAfterWriteAndNoAliasing : Prop :=
  ∀ (s : State) (a : VAddr) (v : Byte), ∃ t, exec (.vwrite a v) s = .next t ∧
    (a.toNat ≤ 0x1FFFF ∨ (0x40000 ≤ a.toNat ∧ a.toNat ≤ 0x4001F) ∨ (0x40200 ≤ a.toNat ∧ a.toNat ≤ 0x403FF) →
      exec (.vread a) t = .next { t with answer := .byte v }) ∧
    ((0x20000 ≤ a.toNat ∧ a.toNat ≤ 0x3FFFF) ∨ (0x40020 ≤ a.toNat ∧ a.toNat ≤ 0x401FF) ∨ 0x40400 ≤ a.toNat →
      exec (.vread a) t = .next { t with answer := .byte (vread s a.toNat) }) ∧
    (∀ b : VAddr, b ≠ a → exec (.vread b) t = .next { t with answer := .byte (vread s b.toNat) })

/-- The eight VADDR rows (40_address_space.md R132 to R141): a read answers with the target's byte and changes nothing else;
a write stores into VRAM, a layer register or the palette, and does nothing for the ROM and the unmapped ranges. That a write
stores all eight bits of every layer register and palette byte is the spec's decision (D23, log 31). -/
def Obligations.AddressRowsReadAndWriteTheirTargets : Prop :=
  ∀ (s : State) (v : Byte),
    (∀ o : BitVec 17, exec (.vaddrRam o .read) s = .next { s with answer := .byte (memRead s.vram o.toNat) } ∧
      ∃ t, exec (.vaddrRam o (.write v)) s = .next t ∧ t = { s with vram := t.vram, answer := .none } ∧
        ∀ a, memRead t.vram a = if a = o.toNat then v else memRead s.vram a) ∧
    (∀ o : BitVec 12, exec (.vaddrRom o .read) s = .next { s with answer := .byte (memRead s.rom o.toNat) } ∧
      exec (.vaddrRom o (.write v)) s = .next { s with answer := .none }) ∧
    (∀ r : BitVec 4, exec (.vaddrLreg0 r .read) s = .next { s with answer := .byte ((s.lr.get 0).get r.toFin) } ∧
      ∃ t, exec (.vaddrLreg0 r (.write v)) s = .next t ∧ t = { s with lr := t.lr, answer := .none } ∧
        ∀ (L : LayerId) (i : Fin 16),
          (t.lr.get L).get i = if L = 0 ∧ i.val = r.toNat then v else (s.lr.get L).get i) ∧
    (∀ r : BitVec 4, exec (.vaddrLreg1 r .read) s = .next { s with answer := .byte ((s.lr.get 1).get r.toFin) } ∧
      ∃ t, exec (.vaddrLreg1 r (.write v)) s = .next t ∧ t = { s with lr := t.lr, answer := .none } ∧
        ∀ (L : LayerId) (i : Fin 16),
          (t.lr.get L).get i = if L = 1 ∧ i.val = r.toNat then v else (s.lr.get L).get i) ∧
    (∀ o : BitVec 9, exec (.vaddrPal o .read) s = .next { s with answer := .byte (memRead s.pal o.toNat) } ∧
      ∃ t, exec (.vaddrPal o (.write v)) s = .next t ∧ t = { s with pal := t.pal, answer := .none } ∧
        ∀ a, memRead t.pal a = if a = o.toNat then v else memRead s.pal a) ∧
    (∀ i ∈ [Instr.vaddrUnmapped1 .read, .vaddrUnmapped2 .read, .vaddrUnmapped3 .read],
      exec i s = .next { s with answer := .byte 0xFF }) ∧
    (∀ i ∈ [Instr.vaddrUnmapped1 (.write v), .vaddrUnmapped2 (.write v), .vaddrUnmapped3 (.write v)],
      exec i s = .next { s with answer := .none })

/-- The pattern decode of 30_encoding.md R95 and the range decode of 40_address_space.md R130 are one decode: the row that an
address's pattern selects does what `VREAD` and `VWRITE` do at the address. -/
def Obligations.PatternDecodeEqualsRangeDecode : Prop :=
  ∀ (s : State) (a : VAddr),
    exec (decodeVaddr a .read) s = exec (.vread a) s ∧
    ∀ v : Byte, exec (decodeVaddr a (.write v)) s = exec (.vwrite a v) s

/-! ## Layer properties -/

/-- `Props(L)` from the register bytes (42_layer_config.md R181 to R192), changing nothing. The spec's own decisions in it:
D7, D8 (register 1, log 16), D9 (scale, log 17), D10 (scroll, log 18), D11 (bases, log 19), D33 (text sub-offset, log 25). -/
def Obligations.PropsFollowTheRegisters : Prop :=
  ∀ (s : State) (L : LayerId), let R : Fin 16 → Nat := fun i => ((s.lr.get L).get i).toNat
    ∃ P : Props, exec (.props L) s = .next { s with answer := .props P } ∧
      (P.enabled = true ↔ R 0 % 2 = 1) ∧
      P.mode = [Mode.text16, .text256, .tile2, .tile4, .tile8, .bitmap2, .bitmap4, .bitmap8].getD (R 0 / 32) .bitmap8 ∧
      P.hscale = R 0 / 2 % 4 + 1 ∧ P.vscale = R 0 / 8 % 4 + 1 ∧
      (P.cls = .text ↔ R 0 / 32 ≤ 1) ∧ (P.cls = .tile ↔ 2 ≤ R 0 / 32 ∧ R 0 / 32 ≤ 4) ∧ (P.cls = .bitmap ↔ 5 ≤ R 0 / 32) ∧
      P.bpp = [1, 1, 2, 4, 8, 2, 4, 8].getD (R 0 / 32) 0 ∧
      P.tileBase = 4 * R 4 + 1024 * R 5 ∧
      (P.cls ≠ .bitmap → P.mapw = 32 * 2 ^ (R 1 % 4) ∧ P.maph = 32 * 2 ^ (R 1 / 4 % 4) ∧
        P.mapBase = 4 * R 2 + 1024 * R 3 ∧ P.hscroll = R 6 + 256 * (R 7 % 16) ∧ P.vscroll = R 8 + 256 * (R 9 % 16)) ∧
      (P.cls = .text → P.tilew = 8 ∧ P.tileh = 8 ∧ P.palOffset = 0) ∧
      (P.cls = .tile → P.tilew = 8 * 2 ^ (R 1 / 16 % 2) ∧ P.tileh = 8 * 2 ^ (R 1 / 32 % 2)) ∧
      (P.cls = .bitmap → P.tilew = 640 ∧ P.tileh = 480 ∧ P.hscroll = 0 ∧ P.vscroll = 0 ∧ P.stride = R 6 ∧
        P.palOffset = R 7 % 16) ∧
      P.tileSize * 8 = P.tilew * P.bpp * P.tileh

/-- `Props(L)` "reads `LR[L][0..9]` and nothing else; it writes no state", and it is total (42_layer_config.md R180): two
states that agree on registers 0 to 9 of the layer, whatever else they hold, give one record, also in the fields that the
layer's class does not use. -/
def Obligations.PropsReadRegistersZeroToNineOnly : Prop :=
  ∀ (s s' : State) (L : LayerId), (∀ i : Fin 16, i.val ≤ 9 → (s.lr.get L).get i = (s'.lr.get L).get i) →
    ∃ P : Props, exec (.props L) s = .next { s with answer := .props P } ∧
      exec (.props L) s' = .next { s' with answer := .props P }

/-- The ranges of everything derived (42_layer_config.md R193), for every register content. -/
def Obligations.PropsStayInTheirRanges : Prop :=
  ∀ r : LayerRegs, let P := propsOf r
    (1 ≤ P.hscale ∧ P.hscale ≤ 4) ∧ (1 ≤ P.vscale ∧ P.vscale ≤ 4) ∧ P.tileBase ≤ 0x3FFFC ∧ P.tileBase % 4 = 0 ∧
    P.hscroll ≤ 4095 ∧ P.vscroll ≤ 4095 ∧
    (P.cls ≠ .bitmap → (32 ≤ P.mapw ∧ P.mapw ≤ 256) ∧ (32 ≤ P.maph ∧ P.maph ≤ 256) ∧ (8 ≤ P.tilew ∧ P.tilew ≤ 16) ∧
      (8 ≤ P.tileh ∧ P.tileh ≤ 16) ∧ (256 ≤ P.mapw * P.tilew ∧ P.mapw * P.tilew ≤ 4096) ∧
      (256 ≤ P.maph * P.tileh ∧ P.maph * P.tileh ≤ 4096) ∧ P.mapBase ≤ 0x3FFFC ∧ P.mapBase % 4 = 0 ∧
      (8 ≤ P.tileSize ∧ P.tileSize ≤ 256)) ∧
    (P.cls = .bitmap → P.stride ≤ 255 ∧ P.palOffset ≤ 15)

/-- Register bits that a layer's class ignores change no pixel (42_layer_config.md R194, R246 of 45_compositor.md): two
register sets that agree on the bits the class uses give the same pixels from the same fetched bytes. Which bits those are
rests on the positions in register 1 (D7, log 16, PRESUMED) and on the layout of the scroll offsets (D10, log 18, PRESUMED). -/
def Obligations.IgnoredRegisterBitsChangeNoPixel : Prop :=
  ∀ (r r' : LayerRegs) (fetch : Nat → Byte) (x y : Nat),
    let R : Fin 16 → Nat := fun i => (r.get i).toNat
    let R' : Fin 16 → Nat := fun i => (r'.get i).toNat
    (R 0 % 2 = 0 → R' 0 % 2 = 0 → renderLayer r fetch x y = renderLayer r' fetch x y) ∧
    (R 0 = R' 0 → R 0 / 32 ≤ 4 → R 1 % (if R 0 / 32 ≤ 1 then 16 else 64) = R' 1 % (if R 0 / 32 ≤ 1 then 16 else 64) →
      (∀ i ∈ [2, 3, 4, 5, 6, 8], R i = R' i) → R 7 % 16 = R' 7 % 16 → R 9 % 16 = R' 9 % 16 →
      renderLayer r fetch x y = renderLayer r' fetch x y) ∧
    (R 0 = R' 0 → 5 ≤ R 0 / 32 → (∀ i ∈ [4, 5, 6], R i = R' i) → R 7 % 16 = R' 7 % 16 →
      renderLayer r fetch x y = renderLayer r' fetch x y)

/-! ## Pixels -/

/-- `RenderText16` and `RenderText256` of a layer in their mode (43_tile_renderer.md R220, R221), changing nothing. The
spec's own decisions in it: D7 to D11 (logs 16 to 19), D12 (log 20), D13 (log 21), D14 (log 22), D16 (log 24). -/
def Obligations.TextModesFollowTheirRules : Prop :=
  ∀ (s : State) (L : LayerId) (x : ScreenX) (y : ScreenY),
    let R : Fin 16 → Nat := fun i => ((s.lr.get L).get i).toNat
    let mapw := 32 * 2 ^ (R 1 % 4)
    let maph := 32 * 2 ^ (R 1 / 4 % 4)
    let ex := (x.val / (R 0 / 2 % 4 + 1) + (R 6 + 256 * (R 7 % 16))) % (mapw * 8)
    let ey := (y.val / (R 0 / 8 % 4 + 1) + (R 8 + 256 * (R 9 % 16))) % (maph * 8)
    let ma := 4 * R 2 + 1024 * R 3 + 2 * (ey / 8 * mapw + ex / 8)
    let byte0 := (vread s ma).toNat
    let byte1 := (vread s (ma + 1)).toNat
    let data := vread s (4 * R 4 + 1024 * R 5 + byte0 * 8 + ey % 8)
    (R 0 / 32 = 0 → exec (.renderText16 L x y) s = .next { s with
      answer := .index (if data.getLsbD (7 - ex % 8) then byte1 % 16 else byte1 / 16) }) ∧
    (R 0 / 32 = 1 → exec (.renderText256 L x y) s = .next { s with
      answer := .index (if data.getLsbD (7 - ex % 8) then byte1 else 0) })

/-- `RenderTile2`, `RenderTile4`, `RenderTile8` of a layer in their mode (43_tile_renderer.md R222 to R224), changing
nothing. The spec's own decisions in it: D7 to D11 (logs 16 to 19), D12 (log 20), D15 (log 23), D16 (log 24). -/
def Obligations.TileModesFollowTheirRules : Prop :=
  ∀ (s : State) (L : LayerId) (x : ScreenX) (y : ScreenY),
    let R : Fin 16 → Nat := fun i => ((s.lr.get L).get i).toNat
    let mapw := 32 * 2 ^ (R 1 % 4)
    let maph := 32 * 2 ^ (R 1 / 4 % 4)
    let tilew := 8 * 2 ^ (R 1 / 16 % 2)
    let tileh := 8 * 2 ^ (R 1 / 32 % 2)
    let ex := (x.val / (R 0 / 2 % 4 + 1) + (R 6 + 256 * (R 7 % 16))) % (mapw * tilew)
    let ey := (y.val / (R 0 / 8 % 4 + 1) + (R 8 + 256 * (R 9 % 16))) % (maph * tileh)
    let ma := 4 * R 2 + 1024 * R 3 + 2 * (ey / tileh * mapw + ex / tilew)
    let byte0 := (vread s ma).toNat
    let byte1 := (vread s (ma + 1)).toNat
    let idx := byte0 + 256 * (byte1 % 4)
    let xx := if byte1 / 4 % 2 = 1 then tilew - 1 - ex % tilew else ex % tilew
    let yy := if byte1 / 8 % 2 = 1 then tileh - 1 - ey % tileh else ey % tileh
    let data := fun bpp : Nat =>
      (vread s (4 * R 4 + 1024 * R 5 + (idx * (tilew * tileh * bpp / 8) + yy * tilew * bpp / 8 + xx * bpp / 8))).toNat
    let offset := fun c0 : Nat => if 1 ≤ c0 ∧ c0 ≤ 15 then c0 + 16 * (byte1 / 16) else c0
    (R 0 / 32 = 2 → exec (.renderTile2 L x y) s = .next { s with
      answer := .index (offset (data 2 / 4 ^ (3 - xx % 4) % 4)) }) ∧
    (R 0 / 32 = 3 → exec (.renderTile4 L x y) s = .next { s with
      answer := .index (offset (data 4 / 16 ^ (1 - xx % 2) % 16)) }) ∧
    (R 0 / 32 = 4 → exec (.renderTile8 L x y) s = .next { s with answer := .index (offset (data 8)) })

/-- `RenderBitmap2`, `RenderBitmap4`, `RenderBitmap8` of a layer in their mode (44_bitmap_renderer.md R238 to R240), changing
nothing. The spec's own decisions in it: D9 (log 17), D11 (log 19), D15 (log 23). -/
def Obligations.BitmapModesFollowTheirRules : Prop :=
  ∀ (s : State) (L : LayerId) (x : ScreenX) (y : ScreenY),
    let R : Fin 16 → Nat := fun i => ((s.lr.get L).get i).toNat
    let xx := x.val / (R 0 / 2 % 4 + 1)
    let yy := y.val / (R 0 / 8 % 4 + 1)
    let data := fun bpp : Nat => (vread s (4 * R 4 + 1024 * R 5 + (yy * R 6 * 4 + xx * bpp / 8))).toNat
    let offset := fun c0 : Nat => if 1 ≤ c0 ∧ c0 ≤ 15 then c0 + 16 * (R 7 % 16) else c0
    (R 0 / 32 = 5 → exec (.renderBitmap2 L x y) s = .next { s with
      answer := .index (offset (data 2 / 4 ^ (3 - xx % 4) % 4)) }) ∧
    (R 0 / 32 = 6 → exec (.renderBitmap4 L x y) s = .next { s with
      answer := .index (offset (data 4 / 16 ^ (1 - xx % 2) % 16)) }) ∧
    (R 0 / 32 = 7 → exec (.renderBitmap8 L x y) s = .next { s with answer := .index (offset (data 8)) })

/-- `ApplyOffset(c0, po)` (43_tile_renderer.md R218): 1 to 15 move up by 16 times the sub-offset, 0 and 16 to 255 stay; the
result is a colour index; nothing changes. -/
def Obligations.ApplyOffsetMovesOneToFifteen : Prop :=
  ∀ (s : State) (c0 : ColorIndex) (po : Fin 16), ∃ n, exec (.applyOffset c0 po) s = .next { s with answer := .index n } ∧
    (c0.val = 0 → n = 0) ∧ (1 ≤ c0.val → c0.val ≤ 15 → n = c0.val + 16 * po.val) ∧ (16 ≤ c0.val → n = c0.val) ∧ n ≤ 255

/-- `Render(L, x, y)` (45_compositor.md R245, R246): 0 for a disabled layer, else what the function of the layer's mode
gives; nothing changes. -/
def Obligations.RenderGatesAndDispatches : Prop :=
  ∀ (s : State) (L : LayerId) (x : ScreenX) (y : ScreenY), let r0 := ((s.lr.get L).get 0).toNat
    (r0 % 2 = 0 → exec (.render L x y) s = .next { s with answer := .index 0 }) ∧
    (r0 % 2 = 1 →
      (r0 / 32 = 0 → exec (.render L x y) s = exec (.renderText16 L x y) s) ∧
      (r0 / 32 = 1 → exec (.render L x y) s = exec (.renderText256 L x y) s) ∧
      (r0 / 32 = 2 → exec (.render L x y) s = exec (.renderTile2 L x y) s) ∧
      (r0 / 32 = 3 → exec (.render L x y) s = exec (.renderTile4 L x y) s) ∧
      (r0 / 32 = 4 → exec (.render L x y) s = exec (.renderTile8 L x y) s) ∧
      (r0 / 32 = 5 → exec (.render L x y) s = exec (.renderBitmap2 L x y) s) ∧
      (r0 / 32 = 6 → exec (.render L x y) s = exec (.renderBitmap4 L x y) s) ∧
      (r0 / 32 = 7 → exec (.render L x y) s = exec (.renderBitmap8 L x y) s))

/-- `Render(L, x, y)` always completes, changes nothing, and answers a colour index 0 to 255 (45_compositor.md R247). -/
def Obligations.RenderAnswersAColourIndex : Prop :=
  ∀ (s : State) (L : LayerId) (x : ScreenX) (y : ScreenY), ∃ n, n ≤ 255 ∧
    exec (.render L x y) s = .next { s with answer := .index n }

/-- Renderer fetches never leave the address ranges of 20_memory.md R74 and R83: a pixel of any layer depends on no byte at or
above 0xB7700, one of a text or tile layer on none at or above 0x7FFFC. So no renderer address needs the reduction modulo
2^20. -/
def Obligations.RendererFetchesStayInRange : Prop :=
  ∀ (r : LayerRegs) (f g : Nat → Byte) (x : ScreenX) (y : ScreenY),
    ((∀ a ≤ 0xB76FF, f a = g a) → renderLayer r f x.val y.val = renderLayer r g x.val y.val) ∧
    ((r.get 0).toNat / 32 ≤ 4 → (∀ a ≤ 0x7FFFB, f a = g a) →
      renderLayer r f x.val y.val = renderLayer r g x.val y.val)

/-- `Composite(x, y)` (45_compositor.md R248): layer 1's index unless it is 0, else layer 0's; nothing changes. -/
def Obligations.CompositePutsLayerOneInFront : Prop :=
  ∀ (s : State) (x : ScreenX) (y : ScreenY), ∃ c1 c0,
    exec (.render 1 x y) s = .next { s with answer := .index c1 } ∧
    exec (.render 0 x y) s = .next { s with answer := .index c0 } ∧
    exec (.composite x y) s = .next { s with answer := .index (if c1 = 0 then c0 else c1) }

/-- `PaletteLookup(i)` (45_compositor.md R250): each nibble of the entry shifted left by four, the low nibble zero, the high
nibble of the high byte ignored; the two bytes are those `VREAD` gives; nothing changes. -/
def Obligations.PaletteLookupShiftsTheNibbles : Prop :=
  ∀ (s : State) (i : ColorIndex), ∃ c : Colour, exec (.paletteLookup i) s = .next { s with answer := .colour c } ∧
    c.n0.toNat = (memRead s.pal (2 * i.val)).toNat % 16 * 16 ∧
    c.n1.toNat = (memRead s.pal (2 * i.val)).toNat / 16 * 16 ∧
    c.n2.toNat = (memRead s.pal (2 * i.val + 1)).toNat % 16 * 16 ∧
    memRead s.pal (2 * i.val) = vread s (0x40200 + 2 * i.val) ∧
    memRead s.pal (2 * i.val + 1) = vread s (0x40200 + 2 * i.val + 1)

/-- `FrameBufferWrite(x, y, c)` (45_compositor.md R252): the pixel's four bytes, every other byte of the frame buffer and
everything else as before. The byte order and the pad byte are the spec's decisions (D3, D4, D5, logs 26, 27). -/
def Obligations.FrameBufferWriteSetsFourBytes : Prop :=
  ∀ (s : State) (x : ScreenX) (y : ScreenY) (c : Colour), ∃ t, exec (.frameBufferWrite x y c) s = .next t ∧
    t = { s with fb := t.fb, answer := .none } ∧
    ∀ a, memRead t.fb a =
      if a = 4 * (y.val * 640 + x.val) then c.n0
      else if a = 4 * (y.val * 640 + x.val) + 1 then c.n1
      else if a = 4 * (y.val * 640 + x.val) + 2 then c.n2
      else if a = 4 * (y.val * 640 + x.val) + 3 then s.params.fbPad
      else memRead s.fb a

/-- `FRAME` (45_compositor.md R256): every pixel's four bytes are the palette entry of its composited index and the pad byte;
nothing but the frame buffer changes. The byte order and the pad byte are the spec's decisions (D3, D4, D5, logs 26, 27). -/
def Obligations.FrameDrawsEveryPixel : Prop :=
  ∀ s : State, ∃ t, exec .frame s = .next t ∧ t = { s with fb := t.fb, answer := .none } ∧
    ∀ (x : ScreenX) (y : ScreenY), ∃ (i : ColorIndex) (c : Colour),
      exec (.composite x y) s = .next { s with answer := .index i.val } ∧
      exec (.paletteLookup i) s = .next { s with answer := .colour c } ∧
      memRead t.fb (4 * (y.val * 640 + x.val)) = c.n0 ∧
      memRead t.fb (4 * (y.val * 640 + x.val) + 1) = c.n1 ∧
      memRead t.fb (4 * (y.val * 640 + x.val) + 2) = c.n2 ∧
      memRead t.fb (4 * (y.val * 640 + x.val) + 3) = s.params.fbPad

/-- A frame pass is the loop of 45_compositor.md R256, in whatever order its pixels are written (R257; 20_memory.md R77 (b)):
performing `FrameBufferWrite(x, y, PaletteLookup(Composite(x, y)))` one pixel after another, each in the state the ones
before it left, over any sequence that holds every pixel of the screen, ends in the state that `FRAME` ends in. The frame
buffer is in canonical form, an invariant stated on its own. -/
def Obligations.FrameIsThePixelLoopInAnyOrder : Prop :=
  ∀ (s : State) (order : List (ScreenX × ScreenY)), Memory.wf Config.fbSize s.fb → (∀ p, p ∈ order) →
    exec .frame s = .next ((order.foldl
      (fun u p => writePixel u p.1.val p.2.val (lookupColour u (compositePixel u p.1.val p.2.val))) s).give .none)

/-- A frame pass depends on the current state only, not on the old frame buffer, and a second pass with no write between
changes nothing (45_compositor.md R258). -/
def Obligations.FramePassHasNoHistory : Prop :=
  ∀ (s : State) (m : Memory), exec .frame { s with fb := m } = exec .frame s ∧
    ∃ t, exec .frame s = .next t ∧ exec .frame t = .next t

/-! ## Reset, power-on, snapshot -/

/-- `Reset()` (70_reset_and_hazards.md R290): layer registers and palette from the parameters, pointers and steps cleared.
That `VRAM`, `ROM`, `FB` and `SEL` stay is the spec's decision (R291; D20, D32, D35; logs 28, 38). -/
def Obligations.ResetRestoresTheDefaults : Prop :=
  ∀ s : State, exec .reset s = .next { s with
    lr := s.params.layerReset, pal := s.params.paletteReset, ptr := #v[0, 0], inc := #v[0, 0], answer := .none }

/-- The state after a reset through port 5 (70_reset_and_hazards.md R295), for any parameters that meet 00_scope.md R6: both
pointers read 0, port 5 reads the written low bit, port 3 reads `VRAM[0]` again and again, layer 0 is enabled with tile base
0x20000. Three clauses rest on the spec's own decisions: that the `VRAM[0]` read is the one of before the reset (a reset leaves
`VRAM`: D20, log 28), the zero upper bits of port 5 (D22, log 30), and the tile base from whole registers (D11, log 19). -/
def Obligations.AfterResetTheFixedReadsHold : Prop :=
  ∀ (s : State) (b : BitVec 1), s.Inv → ∃ t, exec (.pw5Reset b) s = .next t ∧
    (∀ sel : BitVec 1, ∀ i ∈ [Instr.pr0, .pr1, .pr2],
      exec i { t with sel := sel } = .next { t with sel := sel, answer := .byte 0 }) ∧
    exec .pr5 t = .next { t with answer := .byte (0#7 ++ b) } ∧
    (∃ u, exec .pr3 t = .next u ∧ u.answer = .byte (memRead s.vram 0) ∧ exec .pr3 u = .next u) ∧
    vread t 0x40004 = 0x00 ∧ vread t 0x40005 = 0x80 ∧ (vread t 0x40000).getLsbD 0 = true ∧
    (propsOf (t.lr.get 0)).enabled = true ∧ (propsOf (t.lr.get 0)).tileBase = 0x20000

/-- `POWERON` (70_reset_and_hazards.md R293) with any open parameters: the ROM, VRAM and frame buffer are the parameters',
everything else is as after a reset, `SEL` is 0. The sequence is the spec's decision (D6, D20, D21, log 29). -/
def Obligations.PowerOnLoadsTheParameters : Prop :=
  ∀ (s : State) (p : Config.OpenParams), exec (.poweron p) s = .next {
    vram := p.vramInit, rom := p.charRom, pal := p.reset.paletteReset, lr := p.reset.layerReset, ptr := #v[0, 0],
    inc := #v[0, 0], sel := 0, fb := p.fbInit, params := p.reset, pending := s.pending, alone := s.alone, poweredOn := true,
    answer := .none }

/-- `State.reset` is the state after `POWERON` under the parameters that the model names (logs 11 to 14): what the one step of
the block that is not powered on gives, and, but for what is still requested, what `POWERON` gives from any state. -/
def Obligations.ResetStateIsPowerOnUnderNamedParameters : Prop :=
  step { State.off with pending := [encode (.poweron Config.openParamsT)] } = .next State.reset ∧
  ∀ s : State, ∃ t, exec (.poweron Config.openParamsT) s = .next t ∧ { t with pending := [], alone := none } = State.reset

/-- `SNAPSHOT` (60_exceptions.md R281) answers with copies of `VRAM`, `PAL` and `LR` and changes nothing; no pointer moves.
What it returns is the spec's decision (D36, log 34). -/
def Obligations.SnapshotCopiesTheStores : Prop :=
  ∀ s : State, ∃ vram pal lr, exec .snapshot s = .next { s with answer := .snapshot vram pal lr } ∧
    (∀ a, a ≤ 0x1FFFF → memRead vram a = vread s a) ∧ (∀ o, o ≤ 0x1FF → memRead pal o = vread s (0x40200 + o)) ∧
    (∀ (L : LayerId) (i : Fin 16), (lr.get L).get i = vread s (0x40000 + 16 * L.val + i.val))

/-! ## The whole machine -/

/-- No operation faults, traps, hangs or blocks: in every state every operation answers a next state (60_exceptions.md
R270). -/
def Obligations.EveryOperationCompletes : Prop :=
  ∀ (i : Instr) (s : State), Completes (exec i s)

/-- The invariant: canonical stores within their sizes, and parameters that meet 00_scope.md R6. Every step keeps it. -/
def Obligations.EveryStepKeepsTheInvariant : Prop :=
  ∀ s t : State, s.Inv → step s = .next t → t.Inv

/-- The state after power-on has the invariant. -/
def Obligations.ResetStateHasTheInvariant : Prop := State.reset.Inv

/-- The access matrix of 10_state.md R45, over all operations: which operation may change which piece of state. The
block's own operations, looked at by themselves (log 6), stand beside the port they belong to. The spec's own decisions in
it: a reset leaves `VRAM` and `FB` (D20, D35, log 28) and does not itself set `SEL`, so `RESET` is not among the operations
that change `SEL` (D32, log 38). -/
def Obligations.AccessMatrixOfWrites : Prop :=
  ∀ (i : Instr) (s t : State), exec i s = .next t →
    (t.rom ≠ s.rom → ∃ p, i = .poweron p) ∧
    (t.params ≠ s.params → ∃ p, i = .poweron p) ∧
    (t.vram ≠ s.vram → (∃ v, i = .pw3 v) ∨ (∃ v, i = .pw4 v) ∨ (∃ a v, i = .vwrite a v) ∨
      (∃ o v, i = .vaddrRam o (.write v)) ∨ ∃ p, i = .poweron p) ∧
    (t.pal ≠ s.pal → (∃ v, i = .pw3 v) ∨ (∃ v, i = .pw4 v) ∨ (∃ a v, i = .vwrite a v) ∨
      (∃ o v, i = .vaddrPal o (.write v)) ∨ (∃ b, i = .pw5Reset b) ∨ i = .reset ∨ ∃ p, i = .poweron p) ∧
    (t.lr ≠ s.lr → (∃ v, i = .pw3 v) ∨ (∃ v, i = .pw4 v) ∨ (∃ a v, i = .vwrite a v) ∨
      (∃ r v, i = .vaddrLreg0 r (.write v)) ∨ (∃ r v, i = .vaddrLreg1 r (.write v)) ∨
      (∃ b, i = .pw5Reset b) ∨ i = .reset ∨ ∃ p, i = .poweron p) ∧
    (t.ptr ≠ s.ptr → (∃ n a, i = .pw0 n a) ∨ (∃ v, i = .pw1 v) ∨ (∃ v, i = .pw2 v) ∨ i = .pr3 ∨ i = .pr4 ∨
      (∃ v, i = .pw3 v) ∨ (∃ v, i = .pw4 v) ∨ (∃ k, i = .advance k) ∨
      (∃ b, i = .pw5Reset b) ∨ i = .reset ∨ ∃ p, i = .poweron p) ∧
    (t.inc ≠ s.inc → (∃ n a, i = .pw0 n a) ∨ (∃ b, i = .pw5Reset b) ∨ i = .reset ∨ ∃ p, i = .poweron p) ∧
    (t.sel ≠ s.sel → (∃ b, i = .pw5Select b) ∨ (∃ b, i = .pw5Reset b) ∨ ∃ p, i = .poweron p) ∧
    (t.fb ≠ s.fb → (∃ x y c, i = .frameBufferWrite x y c) ∨ i = .frame ∨ ∃ p, i = .poweron p) ∧
    t.pending = s.pending ∧ t.alone = s.alone ∧ (t.poweredOn ≠ s.poweredOn → ∃ p, i = .poweron p)

/-- The outside starts its own moves only: "port transactions, `FRAME`, `POWERON`, `SNAPSHOT`" (00_scope.md R12). A pending
request for an operation that only the block starts (a lone `VWRITE`, `Advance`, `FrameBufferWrite`, `RESET` and the like) is
refused (by name, the model's choice, log 6); every other pending move of a block that is powered on is performed. -/
def Obligations.OutsideStartsItsOwnMovesOnly : Prop :=
  (∀ i : Instr, isHostMove i = true ↔ i.format = .port ∨ i = .frame ∨ (∃ p, i = .poweron p) ∨ i = .snapshot) ∧
  ∀ (s : State) (r : Request) (rest : List Request) (i : Instr), s.alone = none → s.pending = r :: rest → decode r = .ok i →
    (isHostMove i = false → step s = .refused .wrongAgent) ∧
    (isHostMove i = true → isPowerOn i = false → s.poweredOn = true → ∃ t, step s = .next t ∧ t.pending = rest)

/-- `POWERON` comes "once before anything else" (00_scope.md R9), and no operation after it writes the ROM (10_state.md R21)
or the parameters: a step of a block that is powered on keeps it so and keeps both; a step of one that is not performs a
`POWERON` that the platform asks for, or has nothing to do. That anything else asked for is refused is the model's choice
(log 42). -/
def Obligations.PowerOnHappensOnceBeforeAnythingElse : Prop :=
  ∀ s t : State, step s = .next t →
    (s.poweredOn = true → t.poweredOn = true ∧ t.rom = s.rom ∧ t.params = s.params) ∧
    (s.poweredOn = false → (s.pending = [] ∧ t = s) ∨ ∃ p rest, s.pending = .named (.poweron p) :: rest ∧ OpenParamsOk p ∧
      exec (.poweron p) { s with pending := rest } = .next t ∧ t.poweredOn = true)

/-- "Only the CPU's data ports can write" the video address space (40_address_space.md R145), and each move of the surrounding
machine writes what its column of 10_state.md R45 says: in a block that is powered on and driven from outside (nothing is in
`alone`, log 6), which stays so. The spec's own decisions in it: D20, D35 (log 28). -/
def Obligations.OutsideMovesWriteTheirColumnsOnly : Prop :=
  ∀ s t : State, s.alone = none → s.poweredOn = true → step s = .next t →
    (s.pending = [] ∧ t = s) ∨ ∃ r i, s.pending = r :: t.pending ∧ decode r = .ok i ∧ t.alone = none ∧
      (t.vram ≠ s.vram → (∃ v, i = .pw3 v) ∨ ∃ v, i = .pw4 v) ∧
      (t.pal ≠ s.pal ∨ t.lr ≠ s.lr → (∃ v, i = .pw3 v) ∨ (∃ v, i = .pw4 v) ∨ ∃ b, i = .pw5Reset b) ∧
      (t.ptr ≠ s.ptr → (∃ n a, i = .pw0 n a) ∨ (∃ v, i = .pw1 v) ∨ (∃ v, i = .pw2 v) ∨ i = .pr3 ∨ i = .pr4 ∨
        (∃ v, i = .pw3 v) ∨ (∃ v, i = .pw4 v) ∨ ∃ b, i = .pw5Reset b) ∧
      (t.inc ≠ s.inc → (∃ n a, i = .pw0 n a) ∨ ∃ b, i = .pw5Reset b) ∧
      (t.sel ≠ s.sel → (∃ b, i = .pw5Select b) ∨ ∃ b, i = .pw5Reset b) ∧
      (t.fb ≠ s.fb → i = .frame)

/-- There is no hidden state (10_state.md R28) and the frame buffer feeds back into nothing (R27): a run of any number of
steps from a state with another frame buffer and another last answer (the model's own field, log 2) ends in the same state
but for the frame buffer, and once an operation has been performed its answer is the same too. -/
def Obligations.FrameBufferFeedsBackIntoNothing : Prop :=
  ∀ (n : Nat) (s t : State) (m : Memory) (a : Answer), core.run n s = .next t →
    ∃ m' a', core.run n { s with fb := m, answer := a } = .next { t with fb := m', answer := a' } ∧
      (0 < n → (s.pending ≠ [] ∨ s.alone ≠ none) → a' = t.answer) ∧
      (n = 0 ∨ (s.pending = [] ∧ s.alone = none) → a' = a)
end

