-- ==== Sys2Proof/Laws/Memory.lean ====
section
/-! SUPPORT. The laws of byte stores: reading after writing, reading a listed or tabulated store, the canonical form and
that every operation keeps it, and that canonical stores with equal bytes are equal. -/

namespace Sys2Proof.Machine

@[simp] theorem memRead_nil (a : Nat) : memRead [] a = unlistedByte := rfl

theorem memRead_cons (c : Host.Cell) (m : Memory) (a : Nat) :
    memRead (c :: m) a = if c.1 = a then c.2 else memRead m a := rfl

theorem memRead_of_not_mem (m : Memory) (a : Nat) (h : ∀ c ∈ m, c.1 ≠ a) : memRead m a = unlistedByte := by
  induction m with
  | nil => rfl
  | cons c m ih =>
    rw [memRead_cons, if_neg (h c (by simp))]
    exact ih fun d hd => h d (by simp [hd])

theorem mem_memErase (m : Memory) (a : Nat) (c : Host.Cell) : c ∈ memErase m a ↔ c ∈ m ∧ c.1 ≠ a := by
  induction m with
  | nil => simp [memErase]
  | cons d m ih =>
    by_cases h : d.1 = a
    · simp only [memErase, if_pos h, ih, List.mem_cons]
      constructor
      · rintro ⟨h1, h2⟩; exact ⟨.inr h1, h2⟩
      · rintro ⟨rfl | h1, h2⟩
        · exact absurd h h2
        · exact ⟨h1, h2⟩
    · simp only [memErase, if_neg h, ih, List.mem_cons]
      constructor
      · rintro (rfl | ⟨h1, h2⟩)
        · exact ⟨.inl rfl, h⟩
        · exact ⟨.inr h1, h2⟩
      · rintro ⟨rfl | h1, h2⟩
        · exact .inl rfl
        · exact .inr ⟨h1, h2⟩

theorem memRead_memErase (m : Memory) (a b : Nat) :
    memRead (memErase m a) b = if b = a then unlistedByte else memRead m b := by
  induction m with
  | nil => simp [memErase]
  | cons c m ih =>
    by_cases h : c.1 = a
    · rw [memErase, if_pos h, ih, memRead_cons]
      by_cases hb : b = a
      · simp [hb]
      · rw [if_neg hb, if_neg hb, if_neg (by omega)]
    · rw [memErase, if_neg h, memRead_cons, memRead_cons, ih]
      by_cases hb : b = a
      · rw [if_pos hb, if_pos hb, if_neg (by omega)]
      · simp [hb]

theorem mem_memInsert (c d : Host.Cell) (m : Memory) : d ∈ memInsert c m ↔ d = c ∨ d ∈ m := by
  induction m with
  | nil => simp [memInsert]
  | cons e m ih =>
    by_cases h : c.1 < e.1
    · simp [memInsert, h]
    · simp only [memInsert, if_neg h, List.mem_cons, ih]; tauto

theorem memRead_memInsert (c : Host.Cell) (m : Memory) (b : Nat) (h : ∀ d ∈ m, d.1 ≠ c.1) :
    memRead (memInsert c m) b = if b = c.1 then c.2 else memRead m b := by
  induction m with
  | nil => simp [memInsert, memRead_cons, eq_comm]
  | cons e m ih =>
    by_cases he : c.1 < e.1
    · simp only [memInsert, if_pos he, memRead_cons, eq_comm]
    · have hne : e.1 ≠ c.1 := h e (by simp)
      rw [memInsert, if_neg he, memRead_cons, memRead_cons, ih fun d hd => h d (by simp [hd])]
      by_cases hb : b = c.1
      · rw [if_neg (by omega), if_pos hb, if_pos hb]
      · simp [hb]

/-- Reading after a write, in every store: the written byte at its address, the old byte elsewhere. -/
theorem memRead_memWrite (m : Memory) (a b : Nat) (v : Byte) :
    memRead (memWrite m a v) b = if b = a then v else memRead m b := by
  by_cases hv : v = unlistedByte
  · rw [memWrite, if_pos hv, memRead_memErase, hv]
  · rw [memWrite, if_neg hv, memRead_memInsert]
    · rw [memRead_memErase]
      by_cases hb : b = a <;> simp [hb]
    · intro d hd; exact ((mem_memErase m a d).1 hd).2

@[simp] theorem memRead_memWrite_same (m : Memory) (a : Nat) (v : Byte) : memRead (memWrite m a v) a = v := by
  simp [memRead_memWrite]

theorem memRead_memWrite_other (m : Memory) (a b : Nat) (v : Byte) (h : b ≠ a) :
    memRead (memWrite m a v) b = memRead m b := by
  simp [memRead_memWrite, h]

/-- Leaving out the cells that an unlisted address reads as changes no byte, when the addresses do not repeat. -/
theorem memRead_memListed (cs : List Host.Cell) (h : cs.Pairwise fun c d => c.1 ≠ d.1) (a : Nat) :
    memRead (memListed cs) a = memRead cs a := by
  induction cs with
  | nil => rfl
  | cons c cs ih =>
    obtain ⟨h1, h2⟩ := List.pairwise_cons.1 h
    by_cases hc : c.2 = unlistedByte
    · have : memListed (c :: cs) = memListed cs := by simp [memListed, hc]
      rw [this, ih h2, memRead_cons]
      split
      · rename_i ha
        rw [hc]; exact memRead_of_not_mem cs a fun d hd => by have := h1 d hd; omega
      · rfl
    · have : memListed (c :: cs) = c :: memListed cs := by simp [memListed, hc]
      rw [this, memRead_cons, memRead_cons, ih h2]

/-! ## The canonical form -/

theorem memErase_wf {size : Nat} {m : Memory} (h : Memory.wf size m) (a : Nat) : Memory.wf size (memErase m a) := by
  refine ⟨?_, fun c hc => h.2 c ((mem_memErase m a c).1 hc).1⟩
  have h1 := h.1
  clear h
  induction m with
  | nil => simp [memErase]
  | cons c m ih =>
    obtain ⟨h2, h3⟩ := List.pairwise_cons.1 h1
    by_cases hc : c.1 = a
    · simpa [memErase, hc] using ih h3
    · simp only [memErase, if_neg hc]
      exact List.pairwise_cons.2 ⟨fun d hd => h2 d ((mem_memErase m a d).1 hd).1, ih h3⟩

theorem memInsert_sorted {m : Memory} (c : Host.Cell) (h : m.Pairwise fun d e => d.1 < e.1)
    (hc : ∀ d ∈ m, d.1 ≠ c.1) : (memInsert c m).Pairwise fun d e => d.1 < e.1 := by
  induction m with
  | nil => simp [memInsert]
  | cons e m ih =>
    obtain ⟨h1, h2⟩ := List.pairwise_cons.1 h
    by_cases he : c.1 < e.1
    · simp only [memInsert, if_pos he]
      refine List.pairwise_cons.2 ⟨fun d hd => ?_, h⟩
      rcases List.mem_cons.1 hd with rfl | hd
      · exact he
      · exact lt_trans he (h1 d hd)
    · simp only [memInsert, if_neg he]
      refine List.pairwise_cons.2 ⟨fun d hd => ?_, ih h2 fun d hd => hc d (by simp [hd])⟩
      rcases (mem_memInsert c d m).1 hd with rfl | hd
      · have := hc e (by simp); omega
      · exact h1 d hd

/-- A write to an address of the store keeps the canonical form. -/
theorem memWrite_wf {size : Nat} {m : Memory} (h : Memory.wf size m) {a : Nat} (ha : a < size) (v : Byte) :
    Memory.wf size (memWrite m a v) := by
  by_cases hv : v = unlistedByte
  · simpa [memWrite, hv] using memErase_wf h a
  · simp only [memWrite, if_neg hv]
    refine ⟨memInsert_sorted _ (memErase_wf h a).1 fun d hd => ((mem_memErase m a d).1 hd).2, fun c hc => ?_⟩
    rcases (mem_memInsert _ c _).1 hc with rfl | hc
    · exact ⟨ha, hv⟩
    · exact (memErase_wf h a).2 c hc

/-- Listing cells whose addresses rise and stay below the size gives a canonical store. -/
theorem memListed_wf {size : Nat} {cs : List Host.Cell} (h : cs.Pairwise fun c d => c.1 < d.1)
    (hs : ∀ c ∈ cs, c.1 < size) : Memory.wf size (memListed cs) := by
  refine ⟨h.filter _, fun c hc => ?_⟩
  simp only [memListed, List.mem_filter, decide_eq_true_eq] at hc
  exact ⟨hs c hc.1, by simpa using hc.2⟩

theorem memTabulate_wf (size : Nat) (f : Nat → Byte) : Memory.wf size (memTabulate size f) := by
  apply memListed_wf
  · rw [List.pairwise_map]; exact List.pairwise_lt_range
  · intro c hc
    obtain ⟨a, ha, rfl⟩ := List.mem_map.1 hc
    simpa using ha

theorem memRead_of_sorted_mem {m : Memory} (h : m.Pairwise fun d e => d.1 < e.1) {c : Host.Cell} (hc : c ∈ m) :
    memRead m c.1 = c.2 := by
  induction m with
  | nil => simp at hc
  | cons d m ih =>
    obtain ⟨h1, h2⟩ := List.pairwise_cons.1 h
    rcases List.mem_cons.1 hc with rfl | hc
    · simp [memRead_cons]
    · have := h1 c hc
      rw [memRead_cons, if_neg (by omega), ih h2 hc]

/-- Canonical stores that read the same everywhere are equal. -/
theorem memory_ext {n k : Nat} {m m' : Memory} (h : Memory.wf n m) (h' : Memory.wf k m') (hr : ∀ a, memRead m a = memRead m' a) :
    m = m' := by
  have key : ∀ {n k : Nat} {m m' : Memory}, Memory.wf n m → Memory.wf k m' → (∀ a, memRead m a = memRead m' a) →
      ∀ c ∈ m, c ∈ m' := by
    intro n k m m' h h' hr c hc
    by_contra hn
    have h1 := memRead_of_sorted_mem h.1 hc
    rw [hr] at h1
    by_cases hx : ∃ d ∈ m', d.1 = c.1
    · obtain ⟨d, hd, hdc⟩ := hx
      have h2 := memRead_of_sorted_mem h'.1 hd
      rw [hdc, h1] at h2
      exact hn (by rw [show c = d from Prod.ext hdc.symm h2]; exact hd)
    · rw [memRead_of_not_mem m' c.1 fun d hd e => hx ⟨d, hd, e⟩] at h1
      exact (h.2 c hc).2 h1.symm
  have irr : ∀ {l : Memory}, l.Pairwise (fun d e => d.1 < e.1) → l.Nodup := fun hl =>
    hl.imp fun {a b} hab hEq => by rw [hEq] at hab; exact absurd hab (lt_irrefl _)
  refine List.Perm.eq_of_pairwise (le := fun d e : Host.Cell => d.1 < e.1) ?_ h.1 h'.1 ?_
  · intro a b _ _ hab hba; exact absurd (lt_trans hab hba) (lt_irrefl _)
  · rw [List.perm_ext_iff_of_nodup (irr h.1) (irr h'.1)]
    exact fun c => ⟨key h h' hr c, key h' h (fun a => (hr a).symm) c⟩

end Sys2Proof.Machine
end

