-- ==== Sys2Proof/Laws/State.lean ====
section
/-! SUPPORT. One lemma per field per update of the state, so that no proof unfolds a record update; and what reading a
pointer, a step or a layer register gives after one was set. -/

namespace Sys2Proof.Machine

@[simp] theorem setVram_vram (s : State) (m : Memory) : (s.setVram m).vram = m := rfl
@[simp] theorem setVram_rom (s : State) (m : Memory) : (s.setVram m).rom = s.rom := rfl
@[simp] theorem setVram_pal (s : State) (m : Memory) : (s.setVram m).pal = s.pal := rfl
@[simp] theorem setVram_lr (s : State) (m : Memory) : (s.setVram m).lr = s.lr := rfl
@[simp] theorem setVram_ptr (s : State) (m : Memory) : (s.setVram m).ptr = s.ptr := rfl
@[simp] theorem setVram_inc (s : State) (m : Memory) : (s.setVram m).inc = s.inc := rfl
@[simp] theorem setVram_sel (s : State) (m : Memory) : (s.setVram m).sel = s.sel := rfl
@[simp] theorem setVram_fb (s : State) (m : Memory) : (s.setVram m).fb = s.fb := rfl
@[simp] theorem setVram_params (s : State) (m : Memory) : (s.setVram m).params = s.params := rfl
@[simp] theorem setVram_pending (s : State) (m : Memory) : (s.setVram m).pending = s.pending := rfl
@[simp] theorem setVram_alone (s : State) (m : Memory) : (s.setVram m).alone = s.alone := rfl
@[simp] theorem setVram_poweredOn (s : State) (m : Memory) : (s.setVram m).poweredOn = s.poweredOn := rfl
@[simp] theorem setVram_answer (s : State) (m : Memory) : (s.setVram m).answer = s.answer := rfl

@[simp] theorem setPal_vram (s : State) (m : Memory) : (s.setPal m).vram = s.vram := rfl
@[simp] theorem setPal_rom (s : State) (m : Memory) : (s.setPal m).rom = s.rom := rfl
@[simp] theorem setPal_pal (s : State) (m : Memory) : (s.setPal m).pal = m := rfl
@[simp] theorem setPal_lr (s : State) (m : Memory) : (s.setPal m).lr = s.lr := rfl
@[simp] theorem setPal_ptr (s : State) (m : Memory) : (s.setPal m).ptr = s.ptr := rfl
@[simp] theorem setPal_inc (s : State) (m : Memory) : (s.setPal m).inc = s.inc := rfl
@[simp] theorem setPal_sel (s : State) (m : Memory) : (s.setPal m).sel = s.sel := rfl
@[simp] theorem setPal_fb (s : State) (m : Memory) : (s.setPal m).fb = s.fb := rfl
@[simp] theorem setPal_params (s : State) (m : Memory) : (s.setPal m).params = s.params := rfl
@[simp] theorem setPal_pending (s : State) (m : Memory) : (s.setPal m).pending = s.pending := rfl
@[simp] theorem setPal_alone (s : State) (m : Memory) : (s.setPal m).alone = s.alone := rfl
@[simp] theorem setPal_poweredOn (s : State) (m : Memory) : (s.setPal m).poweredOn = s.poweredOn := rfl
@[simp] theorem setPal_answer (s : State) (m : Memory) : (s.setPal m).answer = s.answer := rfl

@[simp] theorem setLayerReg_vram (s : State) (L : LayerId) (i : Fin 16) (v : Byte) : (s.setLayerReg L i v).vram = s.vram := rfl
@[simp] theorem setLayerReg_rom (s : State) (L : LayerId) (i : Fin 16) (v : Byte) : (s.setLayerReg L i v).rom = s.rom := rfl
@[simp] theorem setLayerReg_pal (s : State) (L : LayerId) (i : Fin 16) (v : Byte) : (s.setLayerReg L i v).pal = s.pal := rfl
@[simp] theorem setLayerReg_lr (s : State) (L : LayerId) (i : Fin 16) (v : Byte) : (s.setLayerReg L i v).lr = s.lr.set L ((s.lr.get L).set i v) := rfl
@[simp] theorem setLayerReg_ptr (s : State) (L : LayerId) (i : Fin 16) (v : Byte) : (s.setLayerReg L i v).ptr = s.ptr := rfl
@[simp] theorem setLayerReg_inc (s : State) (L : LayerId) (i : Fin 16) (v : Byte) : (s.setLayerReg L i v).inc = s.inc := rfl
@[simp] theorem setLayerReg_sel (s : State) (L : LayerId) (i : Fin 16) (v : Byte) : (s.setLayerReg L i v).sel = s.sel := rfl
@[simp] theorem setLayerReg_fb (s : State) (L : LayerId) (i : Fin 16) (v : Byte) : (s.setLayerReg L i v).fb = s.fb := rfl
@[simp] theorem setLayerReg_params (s : State) (L : LayerId) (i : Fin 16) (v : Byte) : (s.setLayerReg L i v).params = s.params := rfl
@[simp] theorem setLayerReg_pending (s : State) (L : LayerId) (i : Fin 16) (v : Byte) : (s.setLayerReg L i v).pending = s.pending := rfl
@[simp] theorem setLayerReg_alone (s : State) (L : LayerId) (i : Fin 16) (v : Byte) : (s.setLayerReg L i v).alone = s.alone := rfl
@[simp] theorem setLayerReg_poweredOn (s : State) (L : LayerId) (i : Fin 16) (v : Byte) : (s.setLayerReg L i v).poweredOn = s.poweredOn := rfl
@[simp] theorem setLayerReg_answer (s : State) (L : LayerId) (i : Fin 16) (v : Byte) : (s.setLayerReg L i v).answer = s.answer := rfl

@[simp] theorem setPtr_vram (s : State) (k : PtrId) (a : VAddr) : (s.setPtr k a).vram = s.vram := rfl
@[simp] theorem setPtr_rom (s : State) (k : PtrId) (a : VAddr) : (s.setPtr k a).rom = s.rom := rfl
@[simp] theorem setPtr_pal (s : State) (k : PtrId) (a : VAddr) : (s.setPtr k a).pal = s.pal := rfl
@[simp] theorem setPtr_lr (s : State) (k : PtrId) (a : VAddr) : (s.setPtr k a).lr = s.lr := rfl
@[simp] theorem setPtr_ptr (s : State) (k : PtrId) (a : VAddr) : (s.setPtr k a).ptr = s.ptr.set k a := rfl
@[simp] theorem setPtr_inc (s : State) (k : PtrId) (a : VAddr) : (s.setPtr k a).inc = s.inc := rfl
@[simp] theorem setPtr_sel (s : State) (k : PtrId) (a : VAddr) : (s.setPtr k a).sel = s.sel := rfl
@[simp] theorem setPtr_fb (s : State) (k : PtrId) (a : VAddr) : (s.setPtr k a).fb = s.fb := rfl
@[simp] theorem setPtr_params (s : State) (k : PtrId) (a : VAddr) : (s.setPtr k a).params = s.params := rfl
@[simp] theorem setPtr_pending (s : State) (k : PtrId) (a : VAddr) : (s.setPtr k a).pending = s.pending := rfl
@[simp] theorem setPtr_alone (s : State) (k : PtrId) (a : VAddr) : (s.setPtr k a).alone = s.alone := rfl
@[simp] theorem setPtr_poweredOn (s : State) (k : PtrId) (a : VAddr) : (s.setPtr k a).poweredOn = s.poweredOn := rfl
@[simp] theorem setPtr_answer (s : State) (k : PtrId) (a : VAddr) : (s.setPtr k a).answer = s.answer := rfl

@[simp] theorem setInc_vram (s : State) (k : PtrId) (n : BitVec 4) : (s.setInc k n).vram = s.vram := rfl
@[simp] theorem setInc_rom (s : State) (k : PtrId) (n : BitVec 4) : (s.setInc k n).rom = s.rom := rfl
@[simp] theorem setInc_pal (s : State) (k : PtrId) (n : BitVec 4) : (s.setInc k n).pal = s.pal := rfl
@[simp] theorem setInc_lr (s : State) (k : PtrId) (n : BitVec 4) : (s.setInc k n).lr = s.lr := rfl
@[simp] theorem setInc_ptr (s : State) (k : PtrId) (n : BitVec 4) : (s.setInc k n).ptr = s.ptr := rfl
@[simp] theorem setInc_inc (s : State) (k : PtrId) (n : BitVec 4) : (s.setInc k n).inc = s.inc.set k n := rfl
@[simp] theorem setInc_sel (s : State) (k : PtrId) (n : BitVec 4) : (s.setInc k n).sel = s.sel := rfl
@[simp] theorem setInc_fb (s : State) (k : PtrId) (n : BitVec 4) : (s.setInc k n).fb = s.fb := rfl
@[simp] theorem setInc_params (s : State) (k : PtrId) (n : BitVec 4) : (s.setInc k n).params = s.params := rfl
@[simp] theorem setInc_pending (s : State) (k : PtrId) (n : BitVec 4) : (s.setInc k n).pending = s.pending := rfl
@[simp] theorem setInc_alone (s : State) (k : PtrId) (n : BitVec 4) : (s.setInc k n).alone = s.alone := rfl
@[simp] theorem setInc_poweredOn (s : State) (k : PtrId) (n : BitVec 4) : (s.setInc k n).poweredOn = s.poweredOn := rfl
@[simp] theorem setInc_answer (s : State) (k : PtrId) (n : BitVec 4) : (s.setInc k n).answer = s.answer := rfl

@[simp] theorem setSel_vram (s : State) (b : BitVec 1) : (s.setSel b).vram = s.vram := rfl
@[simp] theorem setSel_rom (s : State) (b : BitVec 1) : (s.setSel b).rom = s.rom := rfl
@[simp] theorem setSel_pal (s : State) (b : BitVec 1) : (s.setSel b).pal = s.pal := rfl
@[simp] theorem setSel_lr (s : State) (b : BitVec 1) : (s.setSel b).lr = s.lr := rfl
@[simp] theorem setSel_ptr (s : State) (b : BitVec 1) : (s.setSel b).ptr = s.ptr := rfl
@[simp] theorem setSel_inc (s : State) (b : BitVec 1) : (s.setSel b).inc = s.inc := rfl
@[simp] theorem setSel_sel (s : State) (b : BitVec 1) : (s.setSel b).sel = b := rfl
@[simp] theorem setSel_fb (s : State) (b : BitVec 1) : (s.setSel b).fb = s.fb := rfl
@[simp] theorem setSel_params (s : State) (b : BitVec 1) : (s.setSel b).params = s.params := rfl
@[simp] theorem setSel_pending (s : State) (b : BitVec 1) : (s.setSel b).pending = s.pending := rfl
@[simp] theorem setSel_alone (s : State) (b : BitVec 1) : (s.setSel b).alone = s.alone := rfl
@[simp] theorem setSel_poweredOn (s : State) (b : BitVec 1) : (s.setSel b).poweredOn = s.poweredOn := rfl
@[simp] theorem setSel_answer (s : State) (b : BitVec 1) : (s.setSel b).answer = s.answer := rfl

@[simp] theorem setFb_vram (s : State) (m : Memory) : (s.setFb m).vram = s.vram := rfl
@[simp] theorem setFb_rom (s : State) (m : Memory) : (s.setFb m).rom = s.rom := rfl
@[simp] theorem setFb_pal (s : State) (m : Memory) : (s.setFb m).pal = s.pal := rfl
@[simp] theorem setFb_lr (s : State) (m : Memory) : (s.setFb m).lr = s.lr := rfl
@[simp] theorem setFb_ptr (s : State) (m : Memory) : (s.setFb m).ptr = s.ptr := rfl
@[simp] theorem setFb_inc (s : State) (m : Memory) : (s.setFb m).inc = s.inc := rfl
@[simp] theorem setFb_sel (s : State) (m : Memory) : (s.setFb m).sel = s.sel := rfl
@[simp] theorem setFb_fb (s : State) (m : Memory) : (s.setFb m).fb = m := rfl
@[simp] theorem setFb_params (s : State) (m : Memory) : (s.setFb m).params = s.params := rfl
@[simp] theorem setFb_pending (s : State) (m : Memory) : (s.setFb m).pending = s.pending := rfl
@[simp] theorem setFb_alone (s : State) (m : Memory) : (s.setFb m).alone = s.alone := rfl
@[simp] theorem setFb_poweredOn (s : State) (m : Memory) : (s.setFb m).poweredOn = s.poweredOn := rfl
@[simp] theorem setFb_answer (s : State) (m : Memory) : (s.setFb m).answer = s.answer := rfl

@[simp] theorem give_vram (s : State) (a : Answer) : (s.give a).vram = s.vram := rfl
@[simp] theorem give_rom (s : State) (a : Answer) : (s.give a).rom = s.rom := rfl
@[simp] theorem give_pal (s : State) (a : Answer) : (s.give a).pal = s.pal := rfl
@[simp] theorem give_lr (s : State) (a : Answer) : (s.give a).lr = s.lr := rfl
@[simp] theorem give_ptr (s : State) (a : Answer) : (s.give a).ptr = s.ptr := rfl
@[simp] theorem give_inc (s : State) (a : Answer) : (s.give a).inc = s.inc := rfl
@[simp] theorem give_sel (s : State) (a : Answer) : (s.give a).sel = s.sel := rfl
@[simp] theorem give_fb (s : State) (a : Answer) : (s.give a).fb = s.fb := rfl
@[simp] theorem give_params (s : State) (a : Answer) : (s.give a).params = s.params := rfl
@[simp] theorem give_pending (s : State) (a : Answer) : (s.give a).pending = s.pending := rfl
@[simp] theorem give_alone (s : State) (a : Answer) : (s.give a).alone = s.alone := rfl
@[simp] theorem give_poweredOn (s : State) (a : Answer) : (s.give a).poweredOn = s.poweredOn := rfl
@[simp] theorem give_answer (s : State) (a : Answer) : (s.give a).answer = a := rfl

@[simp] theorem controllerReset_vram (s : State) : (controllerReset s).vram = s.vram := rfl
@[simp] theorem controllerReset_rom (s : State) : (controllerReset s).rom = s.rom := rfl
@[simp] theorem controllerReset_pal (s : State) : (controllerReset s).pal = s.params.paletteReset := rfl
@[simp] theorem controllerReset_lr (s : State) : (controllerReset s).lr = s.params.layerReset := rfl
@[simp] theorem controllerReset_ptr (s : State) : (controllerReset s).ptr = #v[0x00000, 0x00000] := rfl
@[simp] theorem controllerReset_inc (s : State) : (controllerReset s).inc = #v[0, 0] := rfl
@[simp] theorem controllerReset_sel (s : State) : (controllerReset s).sel = s.sel := rfl
@[simp] theorem controllerReset_fb (s : State) : (controllerReset s).fb = s.fb := rfl
@[simp] theorem controllerReset_params (s : State) : (controllerReset s).params = s.params := rfl
@[simp] theorem controllerReset_pending (s : State) : (controllerReset s).pending = s.pending := rfl
@[simp] theorem controllerReset_alone (s : State) : (controllerReset s).alone = s.alone := rfl
@[simp] theorem controllerReset_poweredOn (s : State) : (controllerReset s).poweredOn = s.poweredOn := rfl
@[simp] theorem controllerReset_answer (s : State) : (controllerReset s).answer = s.answer := rfl

@[simp] theorem powerOn_vram (s : State) (p : Config.OpenParams) : (powerOn s p).vram = p.vramInit := rfl
@[simp] theorem powerOn_rom (s : State) (p : Config.OpenParams) : (powerOn s p).rom = p.charRom := rfl
@[simp] theorem powerOn_pal (s : State) (p : Config.OpenParams) : (powerOn s p).pal = p.reset.paletteReset := rfl
@[simp] theorem powerOn_lr (s : State) (p : Config.OpenParams) : (powerOn s p).lr = p.reset.layerReset := rfl
@[simp] theorem powerOn_ptr (s : State) (p : Config.OpenParams) : (powerOn s p).ptr = #v[0x00000, 0x00000] := rfl
@[simp] theorem powerOn_inc (s : State) (p : Config.OpenParams) : (powerOn s p).inc = #v[0, 0] := rfl
@[simp] theorem powerOn_sel (s : State) (p : Config.OpenParams) : (powerOn s p).sel = 0 := rfl
@[simp] theorem powerOn_fb (s : State) (p : Config.OpenParams) : (powerOn s p).fb = p.fbInit := rfl
@[simp] theorem powerOn_params (s : State) (p : Config.OpenParams) : (powerOn s p).params = p.reset := rfl
@[simp] theorem powerOn_pending (s : State) (p : Config.OpenParams) : (powerOn s p).pending = s.pending := rfl
@[simp] theorem powerOn_alone (s : State) (p : Config.OpenParams) : (powerOn s p).alone = s.alone := rfl
@[simp] theorem powerOn_poweredOn (s : State) (p : Config.OpenParams) : (powerOn s p).poweredOn = true := rfl
@[simp] theorem powerOn_answer (s : State) (p : Config.OpenParams) : (powerOn s p).answer = s.answer := rfl

theorem vector_get_set {α : Type} {n : Nat} (v : Vector α n) (k j : Fin n) (a : α) :
    (v.set k a).get j = if j = k then a else v.get j := by
  simp [Vector.get_eq_getElem, Vector.getElem_set, Fin.ext_iff, eq_comm]

/-- The address of a pointer after one was set. -/
theorem setPtr_ptr_get (s : State) (k j : PtrId) (a : VAddr) :
    (s.setPtr k a).ptr.get j = if j = k then a else s.ptr.get j := vector_get_set s.ptr k j a

/-- The step of a pointer after one was set. -/
theorem setInc_inc_get (s : State) (k j : PtrId) (n : BitVec 4) :
    (s.setInc k n).inc.get j = if j = k then n else s.inc.get j := vector_get_set s.inc k j n

/-- A layer register after one was set. -/
theorem setLayerReg_get (s : State) (L M : LayerId) (i j : Fin 16) (v : Byte) :
    ((s.setLayerReg L i v).lr.get M).get j = if M = L ∧ j = i then v else (s.lr.get M).get j := by
  rw [setLayerReg_lr, vector_get_set]
  by_cases hM : M = L
  · subst hM; simp [vector_get_set]
  · simp [hM]

end Sys2Proof.Machine
end

