-- ==== Sys2Proof/Laws/VideoAddress.lean ====
section
/-! SUPPORT. The video address decoder said once: which region each address has, what a write to a region can do, and what
`VREAD` reads after `VWRITE`. -/

namespace Sys2Proof.Machine

/-- Every address has exactly one of the eight rows (40_address_space.md R130, R131). -/
theorem region_cases (a : Nat) (ha : a < 2 ^ 20) :
    (a ≤ 0x1FFFF ∧ region a = .ram a) ∨
    (0x20000 ≤ a ∧ a ≤ 0x20FFF ∧ region a = .rom (a - 0x20000)) ∨
    (0x21000 ≤ a ∧ a ≤ 0x3FFFF ∧ region a = .unmapped) ∨
    (∃ (L : LayerId) (i : Fin 16), a = 0x40000 + 16 * L.val + i.val ∧ region a = .lreg L i) ∨
    (0x40020 ≤ a ∧ a ≤ 0x401FF ∧ region a = .unmapped) ∨
    (0x40200 ≤ a ∧ a ≤ 0x403FF ∧ region a = .pal (a - 0x40200)) ∨
    (0x40400 ≤ a ∧ region a = .unmapped) := by
  have hm : a % 1048576 = a := by omega
  simp only [region, Nat.reducePow, hm]
  split
  · exact .inl ⟨by assumption, rfl⟩
  split
  · exact .inr (.inl ⟨by omega, by omega, by rw [show a % 0x1000 = a - 0x20000 by omega]⟩)
  split
  · exact .inr (.inr (.inl ⟨by omega, by omega, rfl⟩))
  split
  · refine .inr (.inr (.inr (.inl ⟨0, Fin.ofNat 16 a, ?_, rfl⟩)))
    simp [Fin.ofNat]; omega
  split
  · refine .inr (.inr (.inr (.inl ⟨1, Fin.ofNat 16 a, ?_, rfl⟩)))
    simp [Fin.ofNat]; omega
  split
  · exact .inr (.inr (.inr (.inr (.inl ⟨by omega, by omega, rfl⟩))))
  split
  · exact .inr (.inr (.inr (.inr (.inr (.inl ⟨by omega, by omega, by rw [show a % 0x200 = a - 0x40200 by omega]⟩)))))
  · exact .inr (.inr (.inr (.inr (.inr (.inr ⟨by omega, rfl⟩)))))

theorem region_ram {a : Nat} (h : a ≤ 0x1FFFF) : region a = .ram a := by
  rcases region_cases a (by omega) with h1 | h1 | h1 | ⟨L, i, h1, -⟩ | h1 | h1 | h1 <;> first | exact h1.2 | omega

theorem region_rom {a : Nat} (h : 0x20000 ≤ a) (h' : a ≤ 0x20FFF) : region a = .rom (a - 0x20000) := by
  rcases region_cases a (by omega) with h1 | h1 | h1 | ⟨L, i, h1, -⟩ | h1 | h1 | h1 <;> first | exact h1.2.2 | omega

theorem region_lreg (L : LayerId) (i : Fin 16) : region (0x40000 + 16 * L.val + i.val) = .lreg L i := by
  rcases region_cases (0x40000 + 16 * L.val + i.val) (by omega) with h1 | h1 | h1 | ⟨M, j, h1, h2⟩ | h1 | h1 | h1
  · omega
  · omega
  · omega
  · rw [h2]
    have hL : M = L := Fin.ext (by omega)
    have hi : j = i := Fin.ext (by omega)
    rw [hL, hi]
  · omega
  · omega
  · omega

theorem region_pal {a : Nat} (h : 0x40200 ≤ a) (h' : a ≤ 0x403FF) : region a = .pal (a - 0x40200) := by
  rcases region_cases a (by omega) with h1 | h1 | h1 | ⟨L, i, h1, -⟩ | h1 | h1 | h1 <;> first | exact h1.2.2 | omega

theorem region_unmapped {a : Nat} (ha : a < 2 ^ 20)
    (h : (0x21000 ≤ a ∧ a ≤ 0x3FFFF) ∨ (0x40020 ≤ a ∧ a ≤ 0x401FF) ∨ 0x40400 ≤ a) : region a = .unmapped := by
  rcases region_cases a ha with h1 | h1 | h1 | ⟨L, i, h1, -⟩ | h1 | h1 | h1 <;>
    first | exact h1.2.2 | exact h1.2 | omega

/-- No two addresses share a stored byte (40_address_space.md R144): a region that is not unmapped has one address. -/
theorem region_injective {a b : Nat} (ha : a < 2 ^ 20) (hb : b < 2 ^ 20) (h : region a = region b)
    (hu : region a ≠ .unmapped) : a = b := by
  rcases region_cases a ha with h1 | ⟨h1, h1', h1''⟩ | ⟨-, -, h1⟩ | ⟨L, i, h1, h1'⟩ | ⟨-, -, h1⟩ | ⟨h1, h1', h1''⟩ | ⟨-, h1⟩
  all_goals first | exact absurd h1 hu | skip
  all_goals
    rcases region_cases b hb with h2 | ⟨h2, h2', h2''⟩ | ⟨-, -, h2⟩ | ⟨M, j, h2, h2'⟩ | ⟨-, -, h2⟩ | ⟨h2, h2', h2''⟩ | ⟨-, h2⟩
  all_goals simp_all
  all_goals omega

/-- The addresses of VRAM (40_address_space.md R130). -/
theorem region_eq_ram_iff {a : Nat} (ha : a < 2 ^ 20) (o : Nat) : region a = .ram o ↔ o = a ∧ a ≤ 0x1FFFF := by
  constructor
  · intro h
    rcases region_cases a ha with ⟨h1, h2⟩ | ⟨-, -, h2⟩ | ⟨-, -, h2⟩ | ⟨L, i, -, h2⟩ | ⟨-, -, h2⟩ | ⟨-, -, h2⟩ | ⟨-, h2⟩
    all_goals rw [h] at h2
    · exact ⟨Region.ram.inj h2, h1⟩
    all_goals exact Region.noConfusion h2
  · rintro ⟨rfl, h⟩; exact region_ram h

/-- The address of a layer register. -/
theorem region_eq_lreg_iff {a : Nat} (ha : a < 2 ^ 20) (L : LayerId) (i : Fin 16) :
    region a = .lreg L i ↔ a = 0x40000 + 16 * L.val + i.val := by
  constructor
  · intro h
    rcases region_cases a ha with ⟨-, h2⟩ | ⟨-, -, h2⟩ | ⟨-, -, h2⟩ | ⟨M, j, h1, h2⟩ | ⟨-, -, h2⟩ | ⟨-, -, h2⟩ | ⟨-, h2⟩
    all_goals rw [h] at h2
    all_goals first | exact Region.noConfusion h2 | skip
    obtain ⟨rfl, rfl⟩ := Region.lreg.inj h2
    exact h1
  · rintro rfl; exact region_lreg L i

/-- The addresses of the palette. -/
theorem region_eq_pal_iff {a : Nat} (ha : a < 2 ^ 20) (o : Nat) : region a = .pal o ↔ a = 0x40200 + o ∧ o ≤ 0x1FF := by
  constructor
  · intro h
    rcases region_cases a ha with ⟨-, h2⟩ | ⟨-, -, h2⟩ | ⟨-, -, h2⟩ | ⟨L, i, -, h2⟩ | ⟨-, -, h2⟩ | ⟨h0, h1, h2⟩ | ⟨-, h2⟩
    all_goals rw [h] at h2
    all_goals first | exact Region.noConfusion h2 | skip
    have := Region.pal.inj h2
    omega
  · rintro ⟨rfl, h⟩
    rw [region_pal (by omega) (by omega), Nat.add_sub_cancel_left]

/-- A write to a region changes at most VRAM, the layer registers and the palette. -/
theorem regionWrite_eq (s : State) (v : Byte) (g : Region) :
    regionWrite s v g = { s with
      vram := (regionWrite s v g).vram, lr := (regionWrite s v g).lr, pal := (regionWrite s v g).pal } := by
  cases g <;> rfl

@[simp] theorem regionWrite_rom (s : State) (v : Byte) (g : Region) : (regionWrite s v g).rom = s.rom := by cases g <;> rfl
@[simp] theorem regionWrite_ptr (s : State) (v : Byte) (g : Region) : (regionWrite s v g).ptr = s.ptr := by cases g <;> rfl
@[simp] theorem regionWrite_inc (s : State) (v : Byte) (g : Region) : (regionWrite s v g).inc = s.inc := by cases g <;> rfl
@[simp] theorem regionWrite_sel (s : State) (v : Byte) (g : Region) : (regionWrite s v g).sel = s.sel := by cases g <;> rfl
@[simp] theorem regionWrite_fb (s : State) (v : Byte) (g : Region) : (regionWrite s v g).fb = s.fb := by cases g <;> rfl
@[simp] theorem regionWrite_params (s : State) (v : Byte) (g : Region) : (regionWrite s v g).params = s.params := by
  cases g <;> rfl
@[simp] theorem regionWrite_pending (s : State) (v : Byte) (g : Region) : (regionWrite s v g).pending = s.pending := by
  cases g <;> rfl
@[simp] theorem regionWrite_alone (s : State) (v : Byte) (g : Region) : (regionWrite s v g).alone = s.alone := by
  cases g <;> rfl
@[simp] theorem regionWrite_poweredOn (s : State) (v : Byte) (g : Region) : (regionWrite s v g).poweredOn = s.poweredOn := by
  cases g <;> rfl

/-- VRAM after a write to a region, byte by byte. -/
theorem regionWrite_vram_read (s : State) (v : Byte) (g : Region) (o : Nat) :
    memRead (regionWrite s v g).vram o = if g = .ram o then v else memRead s.vram o := by
  cases g <;> simp [regionWrite, memRead_memWrite, eq_comm]

/-- The palette after a write to a region, byte by byte. -/
theorem regionWrite_pal_read (s : State) (v : Byte) (g : Region) (o : Nat) :
    memRead (regionWrite s v g).pal o = if g = .pal o then v else memRead s.pal o := by
  cases g <;> simp [regionWrite, memRead_memWrite, eq_comm]

/-- The layer registers after a write to a region, one by one. -/
theorem regionWrite_lr_get (s : State) (v : Byte) (g : Region) (L : LayerId) (i : Fin 16) :
    ((regionWrite s v g).lr.get L).get i = if g = .lreg L i then v else (s.lr.get L).get i := by
  cases g with
  | lreg M j => rw [regionWrite, setLayerReg_get]; simp [eq_comm]
  | _ => simp [regionWrite]

/-- Reading a region after a write to one. -/
theorem regionRead_regionWrite (s : State) (v : Byte) (g h : Region) :
    regionRead (regionWrite s v g) h =
      if h = g ∧ regionStores g = true then v else regionRead s h := by
  cases h with
  | ram o => rw [regionRead, regionWrite_vram_read]; cases g <;> simp [regionRead, regionStores, eq_comm]
  | pal o => rw [regionRead, regionWrite_pal_read]; cases g <;> simp [regionRead, regionStores, eq_comm]
  | lreg L i => rw [regionRead, regionWrite_lr_get]; cases g <;> simp [regionRead, regionStores, eq_comm]
  | rom o => rw [regionRead, regionWrite_rom]; cases g <;> simp [regionRead, regionStores]
  | unmapped => cases g <;> simp [regionRead, regionStores]

/-- The addresses that store what is written to them. -/
theorem regionStores_region_iff {a : Nat} (ha : a < 2 ^ 20) :
    regionStores (region a) = true ↔
      a ≤ 0x1FFFF ∨ (0x40000 ≤ a ∧ a ≤ 0x4001F) ∨ (0x40200 ≤ a ∧ a ≤ 0x403FF) := by
  rcases region_cases a ha with ⟨h1, h2⟩ | ⟨h0, h1, h2⟩ | ⟨h0, h1, h2⟩ | ⟨L, i, h1, h2⟩ | ⟨h0, h1, h2⟩ | ⟨h0, h1, h2⟩ | ⟨h1, h2⟩
  all_goals rw [h2]; simp only [regionStores, Bool.false_eq_true, true_iff, false_iff]; omega

/-- `VREAD` after `VWRITE`, at any two addresses. -/
theorem vread_vwrite (s : State) (a b : Nat) (v : Byte) :
    vread (vwrite s a v) b = if region b = region a ∧ regionStores (region a) = true then v else vread s b :=
  regionRead_regionWrite s v (region a) (region b)

/-- The target of an address depends on the address modulo 2^20 only (40_address_space.md R130). -/
theorem region_mod (a : Nat) : region (a % 2 ^ 20) = region a := by simp [region]

/-- Read after write, for all addresses (40_address_space.md R144): `VREAD b` after `VWRITE a, v` gives `v` where `b` is `a`
modulo 2^20 and the target stores, and else what it gave before. -/
theorem read_after_write (s : State) (a b : Nat) (v : Byte) :
    vread (vwrite s a v) b =
      if b % 2 ^ 20 = a % 2 ^ 20 ∧ regionStores (region a) = true then v else vread s b := by
  rw [vread_vwrite]
  refine if_congr (and_congr_left fun hs => ⟨fun h => ?_, fun h => ?_⟩) rfl rfl
  · rw [← region_mod a, ← region_mod b] at h
    exact region_injective (Nat.mod_lt _ (by decide)) (Nat.mod_lt _ (by decide)) h (by
      rw [h, region_mod]; intro hu; rw [hu] at hs; exact absurd hs (by decide))
  · rw [← region_mod a, ← region_mod b, h]

@[simp] theorem regionRead_give (s : State) (x : Answer) (g : Region) : regionRead (s.give x) g = regionRead s g := by
  cases g <;> rfl

@[simp] theorem vread_give (s : State) (x : Answer) (a : Nat) : vread (s.give x) a = vread s a := regionRead_give s x _

/-- A write to a region keeps VRAM and the palette in canonical form. -/
theorem regionWrite_region_wf {s : State} (hv : Memory.wf Config.vramSize s.vram) (hp : Memory.wf Config.palSize s.pal)
    (v : Byte) (a : Nat) :
    Memory.wf Config.vramSize (vwrite s a v).vram ∧ Memory.wf Config.palSize (vwrite s a v).pal := by
  have hm : region a = region (a % 2 ^ 20) := by simp [region]
  rw [vwrite, hm]
  rcases region_cases (a % 2 ^ 20) (Nat.mod_lt _ (by norm_num)) with
    ⟨h1, h2⟩ | ⟨-, -, h2⟩ | ⟨-, -, h2⟩ | ⟨L, i, -, h2⟩ | ⟨-, -, h2⟩ | ⟨h0, h1, h2⟩ | ⟨-, h2⟩
  all_goals rw [h2]
  · exact ⟨memWrite_wf hv (by simp only [Config.vramSize]; omega) v, hp⟩
  · exact ⟨hv, hp⟩
  · exact ⟨hv, hp⟩
  · exact ⟨hv, hp⟩
  · exact ⟨hv, hp⟩
  · exact ⟨hv, memWrite_wf hp (by simp only [Config.palSize]; omega) v⟩
  · exact ⟨hv, hp⟩

/-- A write to a target inside its store keeps VRAM and the palette in canonical form. -/
theorem regionWrite_wf {s : State} (hv : Memory.wf Config.vramSize s.vram) (hp : Memory.wf Config.palSize s.pal)
    (v : Byte) (g : Region) (hr : ∀ o, g = .ram o → o < Config.vramSize) (hq : ∀ o, g = .pal o → o < Config.palSize) :
    Memory.wf Config.vramSize (regionWrite s v g).vram ∧ Memory.wf Config.palSize (regionWrite s v g).pal := by
  cases g with
  | ram o => exact ⟨memWrite_wf hv (hr o rfl) v, hp⟩
  | pal o => exact ⟨hv, memWrite_wf hp (hq o rfl) v⟩
  | _ => exact ⟨hv, hp⟩

end Sys2Proof.Machine
end

