-- ==== Sys2Proof/Laws/Ports.lean ====
section
/-! SUPPORT. The pointer window and the data ports said once: what an advance does to each pointer, what `VREAD` depends on,
and what a data port transaction leaves as it was. -/

namespace Sys2Proof.Machine

/-- A pointer plus its step, modulo 2^20 (41_io_ports.md R166). -/
theorem pointer_add_toNat (p : VAddr) (n : BitVec 4) : (p + n.setWidth 20).toNat = (p.toNat + n.toNat) % 2 ^ 20 := by
  rw [BitVec.toNat_add, BitVec.toNat_setWidth_of_le (by omega)]

/-- An advance sets its pointer to the sum and does nothing else. -/
theorem advance_eq (s : State) (k : PtrId) :
    advance s k = { s with ptr := s.ptr.set k (s.ptr.get k + (s.inc.get k).setWidth 20) } := rfl

theorem advance_ptr_get (s : State) (k j : PtrId) :
    (advance s k).ptr.get j = if j = k then s.ptr.get k + (s.inc.get k).setWidth 20 else s.ptr.get j :=
  vector_get_set _ _ _ _

@[simp] theorem advance_vram (s : State) (k : PtrId) : (advance s k).vram = s.vram := rfl
@[simp] theorem advance_rom (s : State) (k : PtrId) : (advance s k).rom = s.rom := rfl
@[simp] theorem advance_pal (s : State) (k : PtrId) : (advance s k).pal = s.pal := rfl
@[simp] theorem advance_lr (s : State) (k : PtrId) : (advance s k).lr = s.lr := rfl
@[simp] theorem advance_inc (s : State) (k : PtrId) : (advance s k).inc = s.inc := rfl
@[simp] theorem advance_sel (s : State) (k : PtrId) : (advance s k).sel = s.sel := rfl
@[simp] theorem advance_fb (s : State) (k : PtrId) : (advance s k).fb = s.fb := rfl
@[simp] theorem advance_params (s : State) (k : PtrId) : (advance s k).params = s.params := rfl
@[simp] theorem advance_pending (s : State) (k : PtrId) : (advance s k).pending = s.pending := rfl
@[simp] theorem advance_alone (s : State) (k : PtrId) : (advance s k).alone = s.alone := rfl
@[simp] theorem advance_poweredOn (s : State) (k : PtrId) : (advance s k).poweredOn = s.poweredOn := rfl

/-- `VREAD` depends on the four stores it reads and on nothing else (40_address_space.md R142). -/
theorem vread_congr {s t : State} (hv : s.vram = t.vram) (hr : s.rom = t.rom) (hp : s.pal = t.pal) (hl : s.lr = t.lr)
    (a : Nat) : vread s a = vread t a := by
  simp only [vread]
  cases region a <;> simp only [regionRead, hv, hr, hp, hl]

/-- A data port read answers with the byte and advances; nothing else changes (41_io_ports.md R158, R160). -/
theorem dataPortRead_eq (s : State) (k : PtrId) :
    dataPortRead s k = { s with
      ptr := s.ptr.set k (s.ptr.get k + (s.inc.get k).setWidth 20)
      answer := .byte (vread s (s.ptr.get k).toNat) } := rfl

/-- A data port write stores as `VWRITE` does and advances; nothing else changes (41_io_ports.md R159, R161). -/
theorem dataPortWrite_eq (s : State) (k : PtrId) (v : Byte) :
    dataPortWrite s k v = { vwrite s (s.ptr.get k).toNat v with
      ptr := s.ptr.set k (s.ptr.get k + (s.inc.get k).setWidth 20)
      answer := .none } := by
  simp only [dataPortWrite, advance_eq, vwrite, regionWrite_ptr, regionWrite_inc, State.give]

/-- Everything that a data port write may change, by field. -/
theorem dataPortWrite_frame (s : State) (k : PtrId) (v : Byte) :
    (dataPortWrite s k v).rom = s.rom ∧ (dataPortWrite s k v).inc = s.inc ∧ (dataPortWrite s k v).sel = s.sel ∧
    (dataPortWrite s k v).fb = s.fb ∧ (dataPortWrite s k v).params = s.params ∧
    (dataPortWrite s k v).pending = s.pending ∧ (dataPortWrite s k v).alone = s.alone ∧
    (dataPortWrite s k v).poweredOn = s.poweredOn ∧ ∀ j, j ≠ k → (dataPortWrite s k v).ptr.get j = s.ptr.get j := by
  rw [dataPortWrite_eq]
  exact ⟨regionWrite_rom _ _ _, regionWrite_inc _ _ _, regionWrite_sel _ _ _, regionWrite_fb _ _ _,
    regionWrite_params _ _ _, regionWrite_pending _ _ _, regionWrite_alone _ _ _,
    regionWrite_poweredOn _ _ _, fun j hj => (vector_get_set _ _ _ _).trans (if_neg hj)⟩

/-- The selected pointer's window writes change that pointer, and port 0 its step; nothing else. -/
theorem setWindow0_eq (s : State) (n a : BitVec 4) :
    setWindow0 s n a = { s with
      inc := s.inc.set (selected s) n
      ptr := s.ptr.set (selected s) (a ++ (s.ptr.get (selected s)).extractLsb' 0 16) } := rfl

theorem setWindow1_eq (s : State) (v : Byte) :
    setWindow1 s v = { s with
      ptr := s.ptr.set (selected s)
        ((s.ptr.get (selected s)).extractLsb' 16 4 ++ v ++ (s.ptr.get (selected s)).extractLsb' 0 8) } := rfl

theorem setWindow2_eq (s : State) (v : Byte) :
    setWindow2 s v = { s with
      ptr := s.ptr.set (selected s) ((s.ptr.get (selected s)).extractLsb' 8 12 ++ v) } := rfl

end Sys2Proof.Machine
end

