-- ==== Sys2Proof/Laws/Compositor.lean ====
section
/-! SUPPORT. The frame buffer said once: the four cells of a pixel, what `FrameBufferWrite` does to each byte, and the
frame buffer of a frame pass byte by byte; that both keep the canonical form. -/

namespace Sys2Proof.Machine

/-- The four cells of a pixel (45_compositor.md R252 to R254). -/
theorem pixelCells_eq (x y : Nat) (c : Colour) (pad : Byte) :
    pixelCells x y c pad =
      [(pixelBase x y, c.n0), (pixelBase x y + 1, c.n1), (pixelBase x y + 2, c.n2), (pixelBase x y + 3, pad)] := rfl

theorem pixelBase_eq (x y : Nat) : pixelBase x y = 4 * (y * 640 + x) := rfl

theorem pixelCells_sorted (x y : Nat) (c : Colour) (pad : Byte) :
    (pixelCells x y c pad).Pairwise fun d e => d.1 < e.1 := by
  simp [pixelCells_eq]

theorem mem_pixelCells_bounds {x y : Nat} {c : Colour} {pad : Byte} {d : Host.Cell} (h : d ∈ pixelCells x y c pad) :
    4 * (y * 640 + x) ≤ d.1 ∧ d.1 < 4 * (y * 640 + x) + 4 := by
  rw [pixelCells_eq, pixelBase_eq] at h
  simp only [List.mem_cons, List.not_mem_nil, or_false] at h
  rcases h with rfl | rfl | rfl | rfl <;> simp

/-- A pixel written into the frame buffer, byte by byte (45_compositor.md R252). -/
theorem writePixel_fb_read (s : State) (x y : Nat) (c : Colour) (a : Nat) :
    memRead (writePixel s x y c).fb a =
      if a = pixelBase x y then c.n0
      else if a = pixelBase x y + 1 then c.n1
      else if a = pixelBase x y + 2 then c.n2
      else if a = pixelBase x y + 3 then s.params.fbPad
      else memRead s.fb a := by
  simp only [writePixel, setFb_fb, pixelCells_eq, List.foldl_cons, List.foldl_nil, memRead_memWrite]
  split_ifs <;> first | rfl | omega

/-- Writing a pixel changes the frame buffer only. -/
theorem writePixel_eq (s : State) (x y : Nat) (c : Colour) :
    writePixel s x y c = { s with fb := (writePixel s x y c).fb } := rfl

/-- Writing a pixel of the screen keeps the frame buffer's canonical form. -/
theorem writePixel_fb_wf {s : State} (h : Memory.wf Config.fbSize s.fb) {x y : Nat} (hx : x < 640) (hy : y < 480)
    (c : Colour) : Memory.wf Config.fbSize (writePixel s x y c).fb := by
  have hb : pixelBase x y + 3 < Config.fbSize := by rw [pixelBase_eq, Config.fbSize]; omega
  simp only [writePixel, setFb_fb, pixelCells_eq, List.foldl_cons, List.foldl_nil]
  exact memWrite_wf (memWrite_wf (memWrite_wf (memWrite_wf h (by omega) _) (by omega) _) (by omega) _) hb _

/-- The cells of all pixels in the order of the frame pass (45_compositor.md R256), zero bytes included. -/
def allCells (colour : Nat → Nat → Colour) (pad : Byte) : List Host.Cell :=
  (List.range Config.screenH).flatMap fun y =>
    (List.range Config.screenW).flatMap fun x => pixelCells x y (colour x y) pad

theorem frameCells_eq (s : State) : frameCells s = memListed (allCells (pixelColour s) s.params.fbPad) := by
  simp only [frameCells, allCells, memListed, List.filter_flatMap]

theorem mem_allCells {colour : Nat → Nat → Colour} {pad : Byte} {d : Host.Cell} :
    d ∈ allCells colour pad ↔ ∃ y < 480, ∃ x < 640, d ∈ pixelCells x y (colour x y) pad := by
  simp [allCells, List.mem_flatMap, Config.screenH, Config.screenW]

theorem allCells_sorted (colour : Nat → Nat → Colour) (pad : Byte) :
    (allCells colour pad).Pairwise fun d e => d.1 < e.1 := by
  rw [allCells, List.pairwise_flatMap]
  refine ⟨fun y _ => ?_, List.pairwise_lt_range.imp fun {y y'} hy d hd e he => ?_⟩
  · rw [List.pairwise_flatMap]
    refine ⟨fun x _ => pixelCells_sorted _ _ _ _, List.pairwise_lt_range.imp fun {x x'} hx d hd e he => ?_⟩
    have h1 := mem_pixelCells_bounds hd
    have h2 := mem_pixelCells_bounds he
    omega
  · simp only [List.mem_flatMap, List.mem_range, Config.screenW] at hd he
    obtain ⟨x, hx, hd⟩ := hd
    obtain ⟨x', hx', he⟩ := he
    have h1 := mem_pixelCells_bounds hd
    have h2 := mem_pixelCells_bounds he
    omega

/-- The frame buffer of a frame pass is in canonical form. -/
theorem frameCells_wf (s : State) : Memory.wf Config.fbSize (frameCells s) := by
  rw [frameCells_eq]
  refine memListed_wf (allCells_sorted _ _) fun d hd => ?_
  obtain ⟨y, hy, x, hx, hd⟩ := mem_allCells.1 hd
  have := mem_pixelCells_bounds hd
  rw [Config.fbSize]; omega

/-- A byte of the frame buffer of a frame pass is the byte of its pixel's cell. -/
theorem memRead_frameCells (s : State) {x y : Nat} (hx : x < 640) (hy : y < 480) {d : Host.Cell}
    (hd : d ∈ pixelCells x y (pixelColour s x y) s.params.fbPad) : memRead (frameCells s) d.1 = d.2 := by
  rw [frameCells_eq, memRead_memListed _ ((allCells_sorted _ _).imp fun h => Nat.ne_of_lt h)]
  exact memRead_of_sorted_mem (allCells_sorted _ _) (mem_allCells.2 ⟨y, hy, x, hx, hd⟩)

/-- The four bytes of a pixel after a frame pass (45_compositor.md R256). -/
theorem frameCells_pixel (s : State) {x y : Nat} (hx : x < 640) (hy : y < 480) :
    memRead (frameCells s) (pixelBase x y) = (pixelColour s x y).n0 ∧
    memRead (frameCells s) (pixelBase x y + 1) = (pixelColour s x y).n1 ∧
    memRead (frameCells s) (pixelBase x y + 2) = (pixelColour s x y).n2 ∧
    memRead (frameCells s) (pixelBase x y + 3) = s.params.fbPad := by
  have h := fun d => memRead_frameCells s hx hy (d := d)
  simp only [pixelCells_eq, List.mem_cons, List.not_mem_nil, or_false] at h
  exact ⟨h (_, _) (.inl rfl), h (_, _) (.inr (.inl rfl)), h (_, _) (.inr (.inr (.inl rfl))),
    h (_, _) (.inr (.inr (.inr rfl)))⟩

/-- A frame pass replaces the frame buffer and changes nothing else (45_compositor.md R256). -/
theorem execFrame_eq (s : State) : execFrame s = .next { s with fb := frameCells s, answer := .none } := by
  simp only [execFrame, State.setFb, State.give]

/-- The colour of a pixel depends on the four stores that `VREAD` reads and on nothing else; so not on the frame buffer
(10_state.md R27). -/
theorem pixelColour_congr {s t : State} (hv : s.vram = t.vram) (hr : s.rom = t.rom) (hp : s.pal = t.pal)
    (hl : s.lr = t.lr) (x y : Nat) : pixelColour s x y = pixelColour t x y := by
  have hf : vread s = vread t := funext (vread_congr hv hr hp hl)
  unfold pixelColour compositePixel renderPixel lookupColour
  rw [hf, hl, hp]

/-- The frame buffer of a frame pass depends on those stores and the pad byte alone (45_compositor.md R258). -/
theorem frameCells_congr {s t : State} (hv : s.vram = t.vram) (hr : s.rom = t.rom) (hp : s.pal = t.pal)
    (hl : s.lr = t.lr) (hq : s.params.fbPad = t.params.fbPad) : frameCells s = frameCells t := by
  have hc : pixelColour s = pixelColour t := funext fun x => funext fun y => pixelColour_congr hv hr hp hl x y
  rw [frameCells_eq, frameCells_eq, hc, hq]

/-- Reads, writes and accesses commute with replacing the frame buffer. -/
theorem vread_setFb (s : State) (m : Memory) : vread (s.setFb m) = vread s :=
  funext (vread_congr rfl rfl rfl rfl)

theorem regionWrite_setFb (s : State) (m : Memory) (v : Byte) (g : Region) :
    regionWrite (s.setFb m) v g = (regionWrite s v g).setFb m := by cases g <;> rfl

theorem accessRegion_setFb (s : State) (m : Memory) (g : Region) (acc : Access) :
    accessRegion (s.setFb m) g acc = (accessRegion s g acc).setFb m := by
  cases acc with
  | read => cases g <;> rfl
  | write v => cases g <;> rfl

end Sys2Proof.Machine
end

