-- ==== Sys2Proof/Laws/Decode.lean ====
section
/-! SUPPORT. How the fields of a request come apart again: appended patterns and the bytes of the model's request form. -/

namespace Sys2Proof

theorem port_pattern_head (dp : BitVec 4) (v : Byte) : (dp ++ v : BitVec 12).extractLsb' 8 4 = dp :=
  BitVec.extractLsb'_append_eq_left

theorem port_pattern_data (dp : BitVec 4) (v : Byte) : (dp ++ v : BitVec 12).extractLsb' 0 8 = v :=
  BitVec.extractLsb'_append_eq_right

theorem nibbles_high (a b : BitVec 4) : (a ++ b : BitVec 8).extractLsb' 4 4 = a := BitVec.extractLsb'_append_eq_left
theorem nibbles_low (a b : BitVec 4) : (a ++ b : BitVec 8).extractLsb' 0 4 = b := BitVec.extractLsb'_append_eq_right
theorem mode_byte_high (a : BitVec 5) (m : BitVec 3) : (a ++ m : BitVec 8).extractLsb' 3 5 = a :=
  BitVec.extractLsb'_append_eq_left
theorem mode_byte_low (a : BitVec 5) (m : BitVec 3) : (a ++ m : BitVec 8).extractLsb' 0 3 = m :=
  BitVec.extractLsb'_append_eq_right

/-- The three bytes of a video address make the address again. -/
theorem address_bytes (a : VAddr) :
    (a.extractLsb' 16 4 ++ a.extractLsb' 8 8 ++ a.extractLsb' 0 8 : BitVec 20) = a := by
  have h1 : (a.extractLsb' 16 4 ++ a.extractLsb' 8 8 : BitVec 12) = a.extractLsb' 8 12 :=
    BitVec.extractLsb'_append_extractLsb'_eq_extractLsb' (by rfl)
  have h2 : (a.extractLsb' 8 12 ++ a.extractLsb' 0 8 : BitVec 20) = a.extractLsb' 0 20 :=
    BitVec.extractLsb'_append_extractLsb'_eq_extractLsb' (by rfl)
  rw [h1, h2]
  exact BitVec.extractLsb'_eq_self

/-- The bytes of a port request decode by their pattern (30_encoding.md R90). -/
theorem decode_encodePort (dp : BitVec 4) (v : Byte) : decode (encodePort dp v) = .ok (decodePort (dp ++ v)) := by
  simp only [decode, encodePort, decodePortBytes]
  rw [if_pos (nibbles_high 0#4 dp), nibbles_low 0#4 dp]

theorem decodeAccess_encode (acc : Access) :
    ∃ dir v, encodeAccess acc = [dir, v] ∧ decodeAccess dir v = .ok acc := by
  cases acc with
  | read => exact ⟨0, 0, rfl, rfl⟩
  | write v => exact ⟨1, v, rfl, rfl⟩

/-- The bytes of a video address request decode by their pattern (30_encoding.md R95). -/
theorem decode_encodeVaddr (a : VAddr) (acc : Access) : decode (encodeVaddr a acc) = .ok (decodeVaddr a acc) := by
  obtain ⟨dir, v, h1, h2⟩ := decodeAccess_encode acc
  simp only [decode, encodeVaddr, h1, List.cons_append, List.nil_append, decodeVaddrBytes, h2]
  rw [if_pos (nibbles_high 0#4 _), nibbles_low 0#4 _, address_bytes]

/-- The bytes of a mode request decode by their pattern (30_encoding.md R96). -/
theorem decode_encodeMode (m : BitVec 3) (L : LayerId) (x : ScreenX) (y : ScreenY) :
    decode (encodeMode m L x y) = .ok (decodeMode m L x y) := by
  have hl : (BitVec.ofNat 8 L.val).toNat = L.val := by simp; omega
  have hx : (BitVec.ofNat 8 x.val).toNat + 256 * (BitVec.ofNat 8 (x.val / 256)).toNat = x.val := by simp; omega
  have hy : (BitVec.ofNat 8 y.val).toNat + 256 * (BitVec.ofNat 8 (y.val / 256)).toNat = y.val := by simp; omega
  simp only [decode, encodeMode, decodeModeBytes]
  rw [if_pos (mode_byte_high 0#5 m), dif_pos (by omega), dif_pos (by omega), dif_pos (by omega), mode_byte_low 0#5 m]
  congr 2 <;> exact Fin.ext (by assumption)

/-- An appended pattern as a number. -/
theorem append_toNat {n m : Nat} (x : BitVec n) (y : BitVec m) : (x ++ y).toNat = x.toNat * 2 ^ m + y.toNat := by
  rw [BitVec.toNat_append, Nat.shiftLeft_eq, Nat.mul_comm, ← Nat.two_pow_add_eq_or_of_lt y.isLt]

/-- The pattern decode of a video address as comparisons of the address (30_encoding.md R95). -/
theorem decodeVaddr_eq (a : VAddr) (acc : Access) : decodeVaddr a acc =
    if a.toNat < 0x20000 then .vaddrRam (BitVec.ofNat 17 a.toNat) acc
    else if a.toNat < 0x21000 then .vaddrRom (BitVec.ofNat 12 a.toNat) acc
    else if a.toNat < 0x40000 then .vaddrUnmapped1 acc
    else if a.toNat < 0x40010 then .vaddrLreg0 (BitVec.ofNat 4 a.toNat) acc
    else if a.toNat < 0x40020 then .vaddrLreg1 (BitVec.ofNat 4 a.toNat) acc
    else if a.toNat < 0x40200 then .vaddrUnmapped2 acc
    else if a.toNat < 0x40400 then .vaddrPal (BitVec.ofNat 9 a.toNat) acc
    else .vaddrUnmapped3 acc := by
  have hx : ∀ n, a.extractLsb' 0 n = BitVec.ofNat n a.toNat := fun n => BitVec.eq_of_toNat_eq (by simp)
  have hc : ∀ k n (p : BitVec n), a.extractLsb' k n = p ↔ a.toNat / 2 ^ k % 2 ^ n = p.toNat := by
    intro k n p; rw [← BitVec.toNat_inj, BitVec.extractLsb'_toNat, Nat.shiftRight_eq_div_pow]
  have := a.isLt
  simp only [decodeVaddr, hx, hc, BitVec.toNat_ofNat]
  refine ite_congr (propext ⟨by omega, by omega⟩) (fun _ => rfl) fun h1 => ?_
  refine ite_congr (propext ⟨by omega, by omega⟩) (fun _ => rfl) fun h2 => ?_
  refine ite_congr (propext ⟨by omega, by omega⟩) (fun _ => rfl) fun h3 => ?_
  refine ite_congr (propext ⟨by omega, by omega⟩) (fun _ => rfl) fun h4 => ?_
  refine ite_congr (propext ⟨by omega, by omega⟩) (fun _ => rfl) fun h5 => ?_
  refine ite_congr (propext ⟨by omega, by omega⟩) (fun _ => rfl) fun h6 => ?_
  exact ite_congr (propext ⟨by omega, by omega⟩) (fun _ => rfl) fun _ => rfl

theorem format_ite {c : Prop} [Decidable c] {i j : Instr} {f : Format} (hi : i.format = f) (hj : j.format = f) :
    (if c then i else j).format = f := by split <;> assumption

/-- Every pattern selects an operation of its own group (30_encoding.md R90, R95, R96). -/
theorem decodePort_format (w : BitVec 12) : (decodePort w).format = .port := by
  unfold decodePort
  extract_lets dp v
  repeat' first | exact rfl | apply format_ite

theorem decodeVaddr_format (a : VAddr) (acc : Access) : (decodeVaddr a acc).format = .vaddr := by
  unfold decodeVaddr
  repeat' first | exact rfl | apply format_ite

theorem decodeMode_format (m : BitVec 3) (L : LayerId) (x : ScreenX) (y : ScreenY) :
    (decodeMode m L x y).format = .mode := by
  unfold decodeMode
  repeat' first | exact rfl | apply format_ite

/-- A request decodes to an operation of the request's own group, or names it. -/
theorem decode_format {r : Request} {i : Instr} (h : decode r = .ok i) :
    (∃ bytes, r = .coded i.format bytes) ∨ (r = .named i ∧ i.format = .none) := by
  match r with
  | .named j =>
    simp only [decode] at h
    split at h
    · cases h; exact .inr ⟨rfl, ‹_›⟩
    · cases h
  | .coded .none bytes => cases h
  | .coded .port bytes =>
    simp only [decode, decodePortBytes] at h
    split at h
    · split at h
      · cases h; exact .inl ⟨_, by rw [decodePort_format]⟩
      · cases h
    · cases h
  | .coded .vaddr bytes =>
    simp only [decode, decodeVaddrBytes] at h
    split at h
    · split at h
      · split at h
        · cases h; exact .inl ⟨_, by rw [decodeVaddr_format]⟩
        · cases h
      · cases h
    · cases h
  | .coded .mode bytes =>
    simp only [decode, decodeModeBytes] at h
    split at h
    · split_ifs at h
      cases h; exact .inl ⟨_, by rw [decodeMode_format]⟩
    · cases h

end Sys2Proof
end

