-- ==== Sys2Proof/Laws/Invariant.lean ====
section
/-! SUPPORT. Every operation on a store keeps its canonical form and its size, and so do the shared operations of the
machine; the state after power-on has stores in canonical form. -/

namespace Sys2Proof.Machine

/-- The invariant rests on the four stores and the parameters alone. -/
theorem inv_of_stores {s t : State} (h : s.Inv) (hv : t.vram = s.vram) (hr : t.rom = s.rom) (hp : t.pal = s.pal)
    (hf : t.fb = s.fb) (hq : t.params = s.params) : t.Inv := by
  simpa only [State.Inv, hv, hr, hp, hf, hq] using h

theorem vwrite_inv {s : State} (h : s.Inv) (a : Nat) (v : Byte) : (vwrite s a v).Inv := by
  obtain ⟨h1, h2, h3, h4, h5⟩ := h
  obtain ⟨k1, k2⟩ := regionWrite_region_wf h1 h3 v a
  refine ⟨k1, ?_, k2, ?_, ?_⟩
  · rwa [vwrite, regionWrite_rom]
  · rwa [vwrite, regionWrite_fb]
  · rwa [vwrite, regionWrite_params]

theorem accessRegion_inv {s : State} (h : s.Inv) (g : Region) (acc : Access)
    (hr : ∀ o, g = .ram o → o < Config.vramSize) (hq : ∀ o, g = .pal o → o < Config.palSize) :
    (accessRegion s g acc).Inv := by
  cases acc with
  | read => exact h
  | write v =>
    obtain ⟨h1, h2, h3, h4, h5⟩ := h
    obtain ⟨k1, k2⟩ := regionWrite_wf h1 h3 v g hr hq
    refine ⟨k1, ?_, k2, ?_, ?_⟩
    · simpa only [accessRegion, give_rom, regionWrite_rom] using h2
    · simpa only [accessRegion, give_fb, regionWrite_fb] using h4
    · simpa only [accessRegion, give_params, regionWrite_params] using h5

theorem controllerReset_inv {s : State} (h : s.Inv) : (controllerReset s).Inv :=
  ⟨h.1, h.2.1, h.2.2.2.2.2.2.2, h.2.2.2.1, h.2.2.2.2⟩

theorem powerOn_inv (s : State) {p : Config.OpenParams} (h : OpenParamsOk p) : (powerOn s p).Inv :=
  ⟨h.2.1, h.1, h.2.2.2.2.2.2, h.2.2.1, h.2.2.2⟩

theorem writePixel_inv {s : State} (h : s.Inv) {x y : Nat} (hx : x < 640) (hy : y < 480) (c : Colour) :
    (writePixel s x y c).Inv := by
  obtain ⟨h1, h2, h3, h4, h5⟩ := h
  exact ⟨h1, h2, h3, writePixel_fb_wf h4 hx hy c, h5⟩

theorem setFb_inv {s : State} (h : s.Inv) {m : Memory} (hm : Memory.wf Config.fbSize m) : (s.setFb m).Inv :=
  ⟨h.1, h.2.1, h.2.2.1, hm, h.2.2.2.2⟩

theorem setFb_frameCells_inv {s : State} (h : s.Inv) : (s.setFb (frameCells s)).Inv :=
  setFb_inv h (frameCells_wf s)

/-- An empty store is in canonical form. -/
theorem nil_wf (size : Nat) : Memory.wf size [] := ⟨List.Pairwise.nil, fun _ h => absurd h List.not_mem_nil⟩

/-- The named parameters of the model meet 00_scope.md R6. -/
theorem resetParamsT_ok : ResetParamsOk Config.resetParamsT := by
  refine ⟨by decide, by decide, by decide, ?_⟩
  simp only [Config.resetParamsT]
  exact memTabulate_wf _ _

/-- Any parameters of a reset, with the stores of `POWERON` empty, meet 00_scope.md R6 if the reset's do. -/
theorem openParamsOk_of_reset {q : Config.ResetParams} (h : ResetParamsOk q) :
    OpenParamsOk { charRom := [], vramInit := [], fbInit := [], reset := q } :=
  ⟨nil_wf _, nil_wf _, nil_wf _, h⟩

theorem openParamsT_ok : OpenParamsOk Config.openParamsT := openParamsOk_of_reset resetParamsT_ok

/-- The stores of the state after power-on are in canonical form. -/
theorem reset_stores_wf :
    Memory.wf Config.vramSize State.reset.vram ∧ Memory.wf Config.romSize State.reset.rom ∧
    Memory.wf Config.palSize State.reset.pal ∧ Memory.wf Config.fbSize State.reset.fb := by
  simp only [State.reset, Config.resetParamsT]
  exact ⟨nil_wf _, nil_wf _, memTabulate_wf _ _, nil_wf _⟩

end Sys2Proof.Machine
end

