-- ==== Sys2Proof/Laws/Layer.lean ====
section
/-! SUPPORT. The layer register fields as plain arithmetic: slices, base addresses, scroll offsets, classes and dimensions,
for bounds and for the mode rules. -/

namespace Sys2Proof.Machine

theorem reg_lt (r : LayerRegs) (i : Fin 16) : reg r i < 256 := (r.get i).isLt

theorem slice_lt (v hi lo : Nat) : slice v hi lo < 2 ^ (hi + 1 - lo) := Nat.mod_lt _ (by positivity)

/-- A low part below `2 ^ k` or-ed with a high part shifted by `k` is their sum. -/
theorem or_shift_eq_add (lo hi k : Nat) (h : lo < 2 ^ k) : lo ||| hi <<< k = lo + 2 ^ k * hi := by
  rw [Nat.or_comm, Nat.shiftLeft_eq, Nat.mul_comm hi, ← Nat.two_pow_add_eq_or_of_lt h, Nat.add_comm]

/-- A base address is 4 times its low byte plus 1024 times its high byte (42_layer_config.md R186, R187). -/
theorem baseOf_eq (lo hi : Nat) (h : lo < 256) : baseOf lo hi = 4 * lo + 1024 * hi := by
  rw [baseOf, or_shift_eq_add _ _ _ (by rw [Nat.shiftLeft_eq]; omega), Nat.shiftLeft_eq]; omega

/-- The scroll offsets as sums (42_layer_config.md R189). -/
theorem scrollOf_eq (r : LayerRegs) :
    scrollOf r = (reg r 6 + 256 * (reg r 7 % 16), reg r 8 + 256 * (reg r 9 % 16)) := by
  have h6 := reg_lt r 6
  have h8 := reg_lt r 8
  simp only [scrollOf, slice, or_shift_eq_add _ _ 8 (show reg r 6 < 2 ^ 8 by omega),
    or_shift_eq_add _ _ 8 (show reg r 8 < 2 ^ 8 by omega)]
  norm_num

/-- A shift of a small power of two (42_layer_config.md R185, R188). -/
theorem shift_eq_mul_pow (n k : Nat) : n <<< k = n * 2 ^ k := Nat.shiftLeft_eq n k

/-- The mode field is the top three bits of register 0 (42_layer_config.md R182). -/
theorem modeOf_eq (r : LayerRegs) : modeOf r = modeOfField (reg r 0 / 32) := by
  have := reg_lt r 0
  have h : slice (reg r 0) 7 5 = reg r 0 / 32 := by simp only [slice]; norm_num; omega
  rw [modeOf, h]

/-- What each value of the mode field is. -/
theorem modeOfField_cases (r : LayerRegs) :
    (reg r 0 / 32 = 0 ∧ modeOf r = .text16) ∨ (reg r 0 / 32 = 1 ∧ modeOf r = .text256) ∨
    (reg r 0 / 32 = 2 ∧ modeOf r = .tile2) ∨ (reg r 0 / 32 = 3 ∧ modeOf r = .tile4) ∨
    (reg r 0 / 32 = 4 ∧ modeOf r = .tile8) ∨ (reg r 0 / 32 = 5 ∧ modeOf r = .bitmap2) ∨
    (reg r 0 / 32 = 6 ∧ modeOf r = .bitmap4) ∨ (reg r 0 / 32 = 7 ∧ modeOf r = .bitmap8) := by
  have h := reg_lt r 0
  rw [modeOf_eq]
  have : reg r 0 / 32 < 8 := by omega
  generalize reg r 0 / 32 = m at this
  interval_cases m <;> simp [modeOfField]

theorem layerEnabled_eq (r : LayerRegs) : layerEnabled r = true ↔ reg r 0 % 2 = 1 := by
  simp [layerEnabled, slice]

theorem hscaleField_eq (r : LayerRegs) : hscaleField r = reg r 0 / 2 % 4 := by simp [hscaleField, slice]
theorem vscaleField_eq (r : LayerRegs) : vscaleField r = reg r 0 / 8 % 4 := by simp [vscaleField, slice]

theorem tileWidth_tile (r : LayerRegs) : tileWidth r .tile = 8 * 2 ^ (reg r 1 / 16 % 2) := by
  simp [tileWidth, slice, tilewBit, Nat.shiftLeft_eq]

theorem tileHeight_tile (r : LayerRegs) : tileHeight r .tile = 8 * 2 ^ (reg r 1 / 32 % 2) := by
  simp [tileHeight, slice, tilehBit, Nat.shiftLeft_eq]

/-- The properties that every class shares. -/
theorem propsOf_common (r : LayerRegs) :
    (propsOf r).hscale = reg r 0 / 2 % 4 + 1 ∧ (propsOf r).vscale = reg r 0 / 8 % 4 + 1 ∧
    (propsOf r).tileBase = 4 * reg r 4 + 1024 * reg r 5 ∧ (propsOf r).enabled = layerEnabled r ∧
    (propsOf r).mode = modeOf r ∧ (propsOf r).cls = classOf (modeOf r) ∧ (propsOf r).bpp = bppOf (modeOf r) := by
  simp [propsOf, hscaleField_eq, vscaleField_eq, baseOf_eq _ _ (reg_lt r 4)]

/-- The map of a text or tile layer. -/
theorem propsOf_map (r : LayerRegs) (h : classOf (modeOf r) ≠ .bitmap) :
    (propsOf r).mapw = 32 * 2 ^ (reg r 1 % 4) ∧ (propsOf r).maph = 32 * 2 ^ (reg r 1 / 4 % 4) ∧
    (propsOf r).mapBase = 4 * reg r 2 + 1024 * reg r 3 ∧ (propsOf r).hscroll = reg r 6 + 256 * (reg r 7 % 16) ∧
    (propsOf r).vscroll = reg r 8 + 256 * (reg r 9 % 16) := by
  have h1 : slice (reg r 1) (mapwLsb + 1) mapwLsb = reg r 1 % 4 := by simp [slice, mapwLsb]
  have h2 : slice (reg r 1) (maphLsb + 1) maphLsb = reg r 1 / 4 % 4 := by simp [slice, maphLsb]
  cases hc : classOf (modeOf r) with
  | bitmap => exact absurd hc h
  | _ => simp [propsOf, hc, unlessBitmap, scrollIn, scrollOf_eq, h1, h2, Nat.shiftLeft_eq, baseOf_eq _ _ (reg_lt r 2)]

/-- The tiles of a text layer. -/
theorem propsOf_text (r : LayerRegs) (h : classOf (modeOf r) = .text) :
    (propsOf r).tilew = 8 ∧ (propsOf r).tileh = 8 ∧ (propsOf r).palOffset = 0 ∧
    (propsOf r).tileSize = 8 * bppOf (modeOf r) * 8 / 8 := by
  simp [propsOf, h, tileWidth, tileHeight, palOffsetOf]

/-- The tiles of a tile layer. -/
theorem propsOf_tile (r : LayerRegs) (h : classOf (modeOf r) = .tile) :
    (propsOf r).tilew = 8 * 2 ^ (reg r 1 / 16 % 2) ∧ (propsOf r).tileh = 8 * 2 ^ (reg r 1 / 32 % 2) ∧
    (propsOf r).tileSize =
      8 * 2 ^ (reg r 1 / 16 % 2) * bppOf (modeOf r) * (8 * 2 ^ (reg r 1 / 32 % 2)) / 8 := by
  simp [propsOf, h, tileWidth_tile, tileHeight_tile]

/-- The bitmap of a bitmap layer. -/
theorem propsOf_bitmap (r : LayerRegs) (h : classOf (modeOf r) = .bitmap) :
    (propsOf r).tilew = 640 ∧ (propsOf r).tileh = 480 ∧ (propsOf r).hscroll = 0 ∧ (propsOf r).vscroll = 0 ∧
    (propsOf r).stride = reg r 6 ∧ (propsOf r).palOffset = reg r 7 % 16 ∧
    (propsOf r).tileSize = 640 * bppOf (modeOf r) * 480 / 8 := by
  simp [propsOf, h, tileWidth, tileHeight, scrollIn, strideOf, palOffsetOf, slice, Config.screenW, Config.screenH]

theorem applyOffset_le (c0 po : Nat) (hc : c0 ≤ 255) (hp : po ≤ 15) : applyOffset c0 po ≤ 255 := by
  unfold applyOffset; split <;> omega

/-- Flipping inside a tile of 8 or 16 mirrors the coordinate (43_tile_renderer.md R211). -/
theorem flipped_eq (flip : Bool) (k c : Nat) (hc : c < 8 * 2 ^ (k % 2)) :
    flipped flip (8 * 2 ^ (k % 2)) c = if flip then 8 * 2 ^ (k % 2) - 1 - c else c := by
  cases flip
  · rfl
  · have : k % 2 < 2 := Nat.mod_lt _ (by norm_num)
    generalize k % 2 = b at *
    interval_cases b <;> simp only [flipped] <;> norm_num at hc ⊢ <;> interval_cases c <;> rfl

/-- Extraction at 2 bpp as a quotient (43_tile_renderer.md R215). -/
theorem extract2_eq (s xx : Nat) : extract2 s xx = s / 4 ^ (3 - xx % 4) % 4 := by
  have h : (4 : Nat) ^ (3 - xx % 4) = 2 ^ (6 - 2 * (xx % 4)) := by
    rw [show (4 : Nat) = 2 ^ 2 by norm_num, ← pow_mul]; congr 1; omega
  rw [extract2, Nat.shiftRight_eq_div_pow, h, show (3 : Nat) = 2 ^ 2 - 1 by norm_num, Nat.and_two_pow_sub_one_eq_mod]

/-- Extraction at 4 bpp as a quotient (43_tile_renderer.md R216). -/
theorem extract4_eq (s xx : Nat) : extract4 s xx = s / 16 ^ (1 - xx % 2) % 16 := by
  have h : (16 : Nat) ^ (1 - xx % 2) = 2 ^ (4 - 4 * (xx % 2)) := by
    rw [show (16 : Nat) = 2 ^ 4 by norm_num, ← pow_mul]; congr 1; omega
  rw [extract4, Nat.shiftRight_eq_div_pow, h, show (15 : Nat) = 2 ^ 4 - 1 by norm_num, Nat.and_two_pow_sub_one_eq_mod]

/-- The tile index of a cell as a sum (30_encoding.md R100). -/
theorem cellTileIndex_eq (byte0 byte1 : Nat) (h : byte0 < 256) :
    cellTileIndex byte0 byte1 = byte0 + 256 * (byte1 % 4) := by
  rw [cellTileIndex, or_shift_eq_add _ _ 8 (by omega), show (3 : Nat) = 2 ^ 2 - 1 by norm_num,
    Nat.and_two_pow_sub_one_eq_mod]
  norm_num

end Sys2Proof.Machine
end

