-- ==== Sys2Proof/Laws/PerInstr.lean ====
section
/-! SUPPORT. One lemma per operation about the request that `encode` makes of it: an operation of a pattern group is coded
in its group's number of bytes, an operation without a pattern is asked for by its name (spec/30_encoding.md R122; log 5). -/

namespace Sys2Proof.Laws.EncodeShape

/-- The bytes of a coded request of a group (log 5). -/
def requestBytes : Format → Nat
  | .port => 2
  | .vaddr => 5
  | .mode => 6
  | .none => 0

/-- The encoded request of an operation is of its group and has its group's number of bytes; without a group it is the
operation's name. -/
def Statement (i : Instr) : Prop :=
  if i.format = .none then encode i = .named i
  else ∃ bytes, encode i = .coded i.format bytes ∧ bytes.length = requestBytes i.format

theorem port_shape (dp : BitVec 4) (v : Byte) :
    ∃ bytes, encodePort dp v = .coded .port bytes ∧ bytes.length = requestBytes .port := ⟨_, rfl, rfl⟩

theorem vaddr_shape (a : VAddr) (acc : Access) :
    ∃ bytes, encodeVaddr a acc = .coded .vaddr bytes ∧ bytes.length = requestBytes .vaddr := by
  cases acc <;> exact ⟨_, rfl, rfl⟩

theorem mode_shape (m : BitVec 3) (L : LayerId) (x : ScreenX) (y : ScreenY) :
    ∃ bytes, encodeMode m L x y = .coded .mode bytes ∧ bytes.length = requestBytes .mode := ⟨_, rfl, rfl⟩

theorem pr0 : Statement .pr0 := port_shape _ _
theorem pw0 (step addrH : BitVec 4) : Statement (.pw0 step addrH) := port_shape _ _
theorem pr1 : Statement .pr1 := port_shape _ _
theorem pw1 (addrM : Byte) : Statement (.pw1 addrM) := port_shape _ _
theorem pr2 : Statement .pr2 := port_shape _ _
theorem pw2 (addrL : Byte) : Statement (.pw2 addrL) := port_shape _ _
theorem pr3 : Statement .pr3 := port_shape _ _
theorem pw3 (data : Byte) : Statement (.pw3 data) := port_shape _ _
theorem pr4 : Statement .pr4 := port_shape _ _
theorem pw4 (data : Byte) : Statement (.pw4 data) := port_shape _ _
theorem pr5 : Statement .pr5 := port_shape _ _
theorem pw5Select (addrsel : BitVec 1) : Statement (.pw5Select addrsel) := port_shape _ _
theorem pw5Reset (addrsel : BitVec 1) : Statement (.pw5Reset addrsel) := port_shape _ _
theorem pr6 : Statement .pr6 := port_shape _ _
theorem pw6 : Statement .pw6 := port_shape _ _
theorem pr7 : Statement .pr7 := port_shape _ _
theorem pw7 : Statement .pw7 := port_shape _ _
theorem vaddrRam (offset : BitVec 17) (acc : Access) : Statement (.vaddrRam offset acc) := vaddr_shape _ _
theorem vaddrRom (offset : BitVec 12) (acc : Access) : Statement (.vaddrRom offset acc) := vaddr_shape _ _
theorem vaddrUnmapped1 (acc : Access) : Statement (.vaddrUnmapped1 acc) := vaddr_shape _ _
theorem vaddrLreg0 (reg : BitVec 4) (acc : Access) : Statement (.vaddrLreg0 reg acc) := vaddr_shape _ _
theorem vaddrLreg1 (reg : BitVec 4) (acc : Access) : Statement (.vaddrLreg1 reg acc) := vaddr_shape _ _
theorem vaddrUnmapped2 (acc : Access) : Statement (.vaddrUnmapped2 acc) := vaddr_shape _ _
theorem vaddrPal (offset : BitVec 9) (acc : Access) : Statement (.vaddrPal offset acc) := vaddr_shape _ _
theorem vaddrUnmapped3 (acc : Access) : Statement (.vaddrUnmapped3 acc) := vaddr_shape _ _
theorem renderText16 (L : LayerId) (x : ScreenX) (y : ScreenY) : Statement (.renderText16 L x y) := mode_shape _ _ _ _
theorem renderText256 (L : LayerId) (x : ScreenX) (y : ScreenY) : Statement (.renderText256 L x y) := mode_shape _ _ _ _
theorem renderTile2 (L : LayerId) (x : ScreenX) (y : ScreenY) : Statement (.renderTile2 L x y) := mode_shape _ _ _ _
theorem renderTile4 (L : LayerId) (x : ScreenX) (y : ScreenY) : Statement (.renderTile4 L x y) := mode_shape _ _ _ _
theorem renderTile8 (L : LayerId) (x : ScreenX) (y : ScreenY) : Statement (.renderTile8 L x y) := mode_shape _ _ _ _
theorem renderBitmap2 (L : LayerId) (x : ScreenX) (y : ScreenY) : Statement (.renderBitmap2 L x y) := mode_shape _ _ _ _
theorem renderBitmap4 (L : LayerId) (x : ScreenX) (y : ScreenY) : Statement (.renderBitmap4 L x y) := mode_shape _ _ _ _
theorem renderBitmap8 (L : LayerId) (x : ScreenX) (y : ScreenY) : Statement (.renderBitmap8 L x y) := mode_shape _ _ _ _
theorem vread (a : VAddr) : Statement (.vread a) := rfl
theorem vwrite (a : VAddr) (v : Byte) : Statement (.vwrite a v) := rfl
theorem advance (k : PtrId) : Statement (.advance k) := rfl
theorem props (L : LayerId) : Statement (.props L) := rfl
theorem applyOffset (c0 : ColorIndex) (po : Fin 16) : Statement (.applyOffset c0 po) := rfl
theorem render (L : LayerId) (x : ScreenX) (y : ScreenY) : Statement (.render L x y) := rfl
theorem composite (x : ScreenX) (y : ScreenY) : Statement (.composite x y) := rfl
theorem paletteLookup (i : ColorIndex) : Statement (.paletteLookup i) := rfl
theorem frameBufferWrite (x : ScreenX) (y : ScreenY) (c : Colour) : Statement (.frameBufferWrite x y c) := rfl
theorem frame : Statement .frame := rfl
theorem reset : Statement .reset := rfl
theorem poweron (p : Config.OpenParams) : Statement (.poweron p) := rfl
theorem snapshot : Statement .snapshot := rfl

end Sys2Proof.Laws.EncodeShape
end

