-- ==== Sys2Proof/Laws/Step.lean ====
section
/-! SUPPORT. What a step can do, said once: it holds the state, or it performs the operation of the next request under the
conditions that the agents impose (spec/00_scope.md R9, R12); and what makes a request accepted. -/

namespace Sys2Proof.Machine

/-- No objection: the operation's own agent asks, at the right side of power-on, with parameters that meet R6. -/
theorem objection_eq_none_iff (on : Bool) (src : Source) (i : Instr) :
    objection on src i = none ↔
      isHostMove i = decide (src = .outside) ∧ on = !isPowerOn i ∧ i.wellFormed = true := by
  cases src <;> simp only [objection, reduceCtorEq, decide_true, decide_false] <;>
    cases isHostMove i <;> cases isPowerOn i <;> cases on <;> cases i.wellFormed <;> simp

/-- A request is accepted exactly when it decodes to an operation to which nothing is objected. -/
theorem acceptRequest_eq_ok_iff (on : Bool) (src : Source) (r : Request) (i : Instr) :
    acceptRequest on src r = .ok i ↔ decode r = .ok i ∧ objection on src i = none := by
  simp only [acceptRequest]
  cases decode r with
  | error e => simp
  | ok j =>
    simp only [Except.ok.injEq]
    split
    · next e ho =>
      constructor
      · intro h; cases h
      · rintro ⟨rfl, h⟩; rw [ho] at h; cases h
    · next ho =>
      constructor
      · intro h; cases h; exact ⟨rfl, ho⟩
      · rintro ⟨rfl, -⟩; rfl

/-- The operation `POWERON` is the only one of the platform. -/
theorem isPowerOn_iff (i : Instr) : isPowerOn i = true ↔ ∃ p, i = .poweron p := by
  cases i <;> simp [isPowerOn, agentOf]

/-- The next request is the one looked at by itself, or else the first pending one. -/
theorem takeRequest_eq_some_iff (s s' : State) (src : Source) (r : Request) :
    takeRequest s = some (src, r, s') ↔
      (src = .alone ∧ s.alone = some r ∧ s' = { s with alone := none }) ∨
      (src = .outside ∧ s.alone = none ∧ ∃ rest, s.pending = r :: rest ∧ s' = { s with pending := rest }) := by
  simp only [takeRequest]
  cases ha : s.alone with
  | some q => simp [eq_comm]
  | none =>
    cases hp : s.pending with
    | nil => simp
    | cons q rest =>
      simp only [Option.some.injEq, Prod.mk.injEq, reduceCtorEq, false_and, and_false, false_or, true_and, List.cons.injEq]
      constructor
      · rintro ⟨rfl, rfl, rfl⟩; exact ⟨rfl, rest, ⟨rfl, rfl⟩, rfl⟩
      · rintro ⟨rfl, _, ⟨rfl, rfl⟩, rfl⟩; exact ⟨rfl, rfl, rfl⟩

/-- Everything that a step which answers a next state can have done. -/
theorem step_cases {s t : State} (h : step s = .next t) :
    (s.alone = none ∧ s.pending = [] ∧ t = s) ∨
    ∃ src r s' i, takeRequest s = some (src, r, s') ∧ decode r = .ok i ∧ isHostMove i = decide (src = .outside) ∧
      s.poweredOn = (!isPowerOn i) ∧ i.wellFormed = true ∧ exec i s' = .next t := by
  simp only [step] at h
  split at h
  · next hn =>
    refine .inl ?_
    simp only [takeRequest] at hn
    split at hn
    · simp at hn
    · split at hn
      · exact ⟨‹_›, ‹_›, by simpa using h.symm⟩
      · simp at hn
  · next src r s' hs =>
    split at h
    · simp at h
    · next i hi =>
      obtain ⟨hd, ho⟩ := (acceptRequest_eq_ok_iff _ _ _ _).1 hi
      obtain ⟨h1, h2, h3⟩ := (objection_eq_none_iff _ _ _).1 ho
      exact .inr ⟨src, r, s', i, hs, hd, h1, h2, h3, h⟩

/-- A request that is accepted is performed. -/
theorem step_of_accepted {s s' : State} {src : Source} {r : Request} {i : Instr}
    (ht : takeRequest s = some (src, r, s')) (ha : acceptRequest s.poweredOn src r = .ok i) : step s = exec i s' := by
  simp only [step, ht, ha]

/-- A request that is not accepted is refused, with the reason. -/
theorem step_of_refused {s s' : State} {src : Source} {r : Request} {e : Refusal}
    (ht : takeRequest s = some (src, r, s')) (ha : acceptRequest s.poweredOn src r = .error e) : step s = .refused e := by
  simp only [step, ht, ha]

end Sys2Proof.Machine
end

