-- ==== Sys2Proof/Tests/Slice0.lean ====
section
/-! SUPPORT. The model's own tests: what `wellFormed` refuses, the words of spec/30_encoding.md written out bit by bit, one
step or one operation on small states with the results of spec/95_test_vectors.md, and for every statement with hypotheses a
state and operands that meet them. -/

namespace Sys2Proof.Tests

open Sys2Proof Sys2Proof.Machine

/-! ## Small states -/

/-- A layer's registers 0 to 9 as written, 10 to 15 zero. -/
def layer (r0 r1 r2 r3 r4 r5 r6 r7 r8 r9 : Byte) : LayerRegs := #v[r0, r1, r2, r3, r4, r5, r6, r7, r8, r9, 0, 0, 0, 0, 0, 0]

/-- Parameters that meet 00_scope.md R6, with an all-zero palette. -/
def smallParams : Config.ResetParams := { layerReset := Config.layerResetT, paletteReset := [], fbPad := 0x5A }

/-- A state with the given VRAM, pointers, steps and selector; everything else zero or as after a reset. -/
def small (vram : Memory) (p0 p1 : VAddr) (n0 n1 : BitVec 4) (sel : BitVec 1) : State :=
  { vram, rom := [(0, 0x01), (0xFFF, 0x74)], pal := [(0, 0x21), (1, 0x03)], lr := Config.layerResetT, ptr := #v[p0, p1],
    inc := #v[n0, n1], sel, fb := [], params := smallParams, pending := [],
    alone := none, poweredOn := true, answer := .none }

/-- A state with the given layers and VRAM. -/
def screen (l0 l1 : LayerRegs) (vram : Memory) : State := { small vram 0 0 0 0 0 with lr := #v[l0, l1] }

/-- The next state of an outcome. -/
def after (o : Outcome) : Option State :=
  match o with
  | .next t => some t
  | .fault _ => none
  | .refused _ => none

/-- What an operation gives back. -/
def result (i : Instr) (s : State) : Option Answer := (after (exec i s)).map State.answer

/-! ## Well-formedness: an ill-formed term for each check (00_scope.md R6), and one that passes -/

/-- Small open parameters that meet every constraint. -/
def okParams : Config.OpenParams := { charRom := [], vramInit := [(5, 1)], fbInit := [], reset := smallParams }

theorem test_wellFormed_ok : (Instr.poweron okParams).wellFormed = true := by decide
theorem test_wellFormed_others : Instr.frame.wellFormed = true ∧ (Instr.pw3 0xFF).wellFormed = true := by decide
theorem test_illFormed_rom_size :
    (Instr.poweron { okParams with charRom := [(0x1000, 1)] }).wellFormed = false := by decide
theorem test_illFormed_vram_size :
    (Instr.poweron { okParams with vramInit := [(0x20000, 1)] }).wellFormed = false := by decide
theorem test_illFormed_vram_order :
    (Instr.poweron { okParams with vramInit := [(2, 1), (1, 1)] }).wellFormed = false := by decide
theorem test_illFormed_vram_repeat :
    (Instr.poweron { okParams with vramInit := [(2, 1), (2, 3)] }).wellFormed = false := by decide
theorem test_illFormed_vram_listed_default :
    (Instr.poweron { okParams with vramInit := [(2, 0)] }).wellFormed = false := by decide
theorem test_illFormed_fb_size :
    (Instr.poweron { okParams with fbInit := [(1228800, 1)] }).wellFormed = false := by decide
theorem test_illFormed_palette_size :
    (Instr.poweron { okParams with reset := { smallParams with paletteReset := [(0x200, 1)] } }).wellFormed = false := by
  decide
theorem test_illFormed_layer_disabled :
    (Instr.poweron { okParams with reset :=
      { smallParams with layerReset := #v[layer 0 0 0 0 0 0x80 0 0 0 0, layer 0 0 0 0 0 0 0 0 0 0] } }).wellFormed = false := by
  decide
theorem test_illFormed_tile_base_low :
    (Instr.poweron { okParams with reset :=
      { smallParams with layerReset := #v[layer 1 0 0 0 1 0x80 0 0 0 0, layer 0 0 0 0 0 0 0 0 0 0] } }).wellFormed = false := by
  decide
theorem test_illFormed_tile_base_high :
    (Instr.poweron { okParams with reset :=
      { smallParams with layerReset := #v[layer 1 0 0 0 0 0x81 0 0 0 0, layer 0 0 0 0 0 0 0 0 0 0] } }).wellFormed = false := by
  decide

/-! ## Decoding: the words of 30_encoding.md R90, R95, R96, bit by bit, every constructor -/

theorem test_decode_port_reads :
    decodeTableWord 16 0b0_000_00000000 = some .pr0 ∧ decodeTableWord 16 0b0_001_00000000 = some .pr1 ∧
    decodeTableWord 16 0b0_010_00000000 = some .pr2 ∧ decodeTableWord 16 0b0_011_11111111 = some .pr3 ∧
    decodeTableWord 16 0b0_100_00000000 = some .pr4 ∧ decodeTableWord 16 0b0_101_00000000 = some .pr5 ∧
    decodeTableWord 16 0b0_110_01011010 = some .pr6 ∧ decodeTableWord 16 0b0_111_00000000 = some .pr7 := by decide

theorem test_decode_port_writes :
    decodeTableWord 16 0b1_000_0011_1010 = some (.pw0 0b0011 0b1010) ∧
    decodeTableWord 16 0b1_001_00100011 = some (.pw1 0b00100011) ∧
    decodeTableWord 16 0b1_010_11110001 = some (.pw2 0b11110001) ∧
    decodeTableWord 16 0b1_011_10000001 = some (.pw3 0b10000001) ∧
    decodeTableWord 16 0b1_100_01111110 = some (.pw4 0b01111110) ∧
    decodeTableWord 16 0b1_101_0111111_1 = some (.pw5Select 1) ∧
    decodeTableWord 16 0b1_101_1111111_0 = some (.pw5Reset 0) ∧
    decodeTableWord 16 0b1_110_11111111 = some .pw6 ∧ decodeTableWord 16 0b1_111_10100101 = some .pw7 := by decide

theorem test_decode_addresses :
    decodeTableWord 24 0b000_10000000000000011 = some (.vaddrRam 0b10000000000000011 .read) ∧
    decodeTableWord 24 0b00100000_100000000101 = some (.vaddrRom 0b100000000101 .read) ∧
    decodeTableWord 24 0b001_00001000000000000 = some (.vaddrUnmapped1 .read) ∧
    decodeTableWord 24 0b0100000000000000_1001 = some (.vaddrLreg0 0b1001 .read) ∧
    decodeTableWord 24 0b0100000000000001_0110 = some (.vaddrLreg1 0b0110 .read) ∧
    decodeTableWord 24 0b01000000000_000100000 = some (.vaddrUnmapped2 .read) ∧
    decodeTableWord 24 0b01000000001_100000011 = some (.vaddrPal 0b100000011 .read) ∧
    decodeTableWord 24 0b10000000000000000000 = some (.vaddrUnmapped3 .read) := by decide

theorem test_decode_address_write :
    (decode (.coded .vaddr [0x10, 0x02, 0x04, 1, 0x5A])).toOption = some (.vaddrPal 0x010 (.write 0x5A)) := by decide

/-- The don't-care rows of the table: an earlier pattern takes the words 0x20000, 0x40000 and 0 first (R95). -/
theorem test_decode_first_match_wins :
    decodeTableWord 24 0x20000 = some (.vaddrRom 0 .read) ∧ decodeTableWord 24 0x40000 = some (.vaddrLreg0 0 .read) ∧
    decodeTableWord 24 0x00000 = some (.vaddrRam 0 .read) := by decide

theorem test_decode_modes :
    decodeTableWord 8 0b000 = some (.renderText16 0 0 0) ∧ decodeTableWord 8 0b001 = some (.renderText256 0 0 0) ∧
    decodeTableWord 8 0b010 = some (.renderTile2 0 0 0) ∧ decodeTableWord 8 0b011 = some (.renderTile4 0 0 0) ∧
    decodeTableWord 8 0b100 = some (.renderTile8 0 0 0) ∧ decodeTableWord 8 0b101 = some (.renderBitmap2 0 0 0) ∧
    decodeTableWord 8 0b110 = some (.renderBitmap4 0 0 0) ∧ decodeTableWord 8 0b111 = some (.renderBitmap8 0 0 0) := by
  decide

theorem test_decode_mode_operands :
    (decode (.coded .mode [0b100, 1, 0x7F, 0x02, 0xDF, 0x01])).toOption = some (.renderTile8 1 639 479) := by decide

/-- The operations that no bit pattern selects are named (R122). -/
theorem test_decode_named :
    (∀ i ∈ [Instr.vread 0xABCDE, .vwrite 0x12345 0x67, .advance 1, .props 1, .applyOffset 3 5, .render 1 2 3,
      .composite 4 5, .paletteLookup 255, .frameBufferWrite 1 2 ⟨3, 4, 5⟩, .frame, .reset, .poweron okParams, .snapshot],
      (decode (.named i)).toOption = some i) := by decide

theorem test_decode_refuses :
    (decode (.named .pr3)).toOption = none ∧ (decode (.coded .none [])).toOption = none ∧
    (decode (.coded .port [0, 0x10])).toOption = none ∧ (decode (.coded .port [0])).toOption = none ∧
    (decode (.coded .vaddr [0, 0, 0x10, 0, 0])).toOption = none ∧ (decode (.coded .vaddr [0, 0, 0, 2, 0])).toOption = none ∧
    (decode (.coded .mode [8, 0, 0, 0, 0, 0])).toOption = none ∧ decodeTableWord 32 0 = none ∧ decodeTableWord 0 0 = none := by
  decide

/-! ## Ports (95_test_vectors.md 2.2) -/

/-- V2.1, V2.2, V2.3. -/
theorem test_window_reads :
    result .pr0 (small [] 0x12345 0 3 0 0) = some (.byte 0x31) ∧ result .pr1 (small [] 0x12345 0 3 0 0) = some (.byte 0x23) ∧
    result .pr2 (small [] 0x12345 0 3 0 0) = some (.byte 0x45) := by decide
/-- V2.4. -/
theorem test_window_selected : result .pr0 (small [] 0x12345 0xABCDE 3 15 1) = some (.byte 0xFA) := by decide
/-- V2.5. -/
theorem test_pw0 : (after (exec (.pw0 0xF 0x7) (small [] 0x12345 0 3 0 0))).map (fun t => (t.ptr, t.inc)) =
    some (#v[0x72345, 0], #v[15, 0]) := by decide
/-- V2.6. -/
theorem test_pw1 : (after (exec (.pw1 0x00) (small [] 0x12345 0 3 0 0))).map State.ptr = some #v[0x10045, 0] := by decide
/-- V2.7 and V2.8. -/
theorem test_pw2 : (after (exec (.pw2 0xFF) (small [] 0x12345 0 3 0 0))).map State.ptr = some #v[0x123FF, 0] ∧
    (after (exec (.pw2 0x99) (small [] 0x00010 0x00020 0 0 1))).map State.ptr = some #v[0x00010, 0x00099] := by decide
/-- V2.9: port 3 uses pointer 0 although `SEL` is 1. -/
theorem test_pr3 : (after (exec .pr3 (small [(0x10, 0xAB)] 0x00010 0 2 0 1))).map (fun t => (t.answer, t.ptr)) =
    some (.byte 0xAB, #v[0x00012, 0]) := by decide
/-- V2.11: unmapped, and the pointer wraps. -/
theorem test_pr3_wraps : (after (exec .pr3 (small [] 0xFFFFF 0 1 0 0))).map (fun t => (t.answer, t.ptr)) =
    some (.byte 0xFF, #v[0x00000, 0]) := by decide
/-- V2.12: nothing stored, the pointer wraps. -/
theorem test_pw3_wraps : (after (exec (.pw3 0x00) (small [] 0xFFFF8 0 15 0 0))).map (fun t => (t.vram, t.ptr)) =
    some ([], #v[0x00007, 0]) := by decide
/-- V2.15: the ROM is unchanged. -/
theorem test_pw3_rom : (after (exec (.pw3 0x12) (small [] 0x20000 0 1 0 0))).map (fun t => (t.rom, t.ptr)) =
    some ([(0, 0x01), (0xFFF, 0x74)], #v[0x20001, 0]) := by decide
/-- V2.10: port 4 uses pointer 1 although `SEL` is 0. -/
theorem test_pw4 : (after (exec (.pw4 0xCD) (small [] 0 0x00020 0 1 0))).map (fun t => (t.vram, t.ptr)) =
    some ([(0x20, 0xCD)], #v[0, 0x00021]) := by decide
/-- V2.14: step 0 keeps the pointer. -/
theorem test_pr4 : (after (exec .pr4 (small [(0x1000, 0x42)] 0 0x01000 0 0 0))).map (fun t => (t.answer, t.ptr)) =
    some (.byte 0x42, #v[0, 0x01000]) := by decide
/-- V2.16, V2.18: the selector reads back, the upper bits zero (D22). -/
theorem test_pr5 : result .pr5 (small [] 0 0 0 0 1) = some (.byte 0x01) := by decide
/-- V2.18: bits 6:1 of the written byte are ignored, no reset. -/
theorem test_pw5_select : (after (step ({ small [] 0x12345 0 3 0 0 with pending := [.coded .port [0x7F, 0x0D]] }))).map
    (fun t => (t.sel, t.ptr, t.inc)) = some (1, #v[0x12345, 0], #v[3, 0]) := by decide
/-- V2.17, V9.1: reset and selector 0; VRAM stays. -/
theorem test_pw5_reset : (after (step ({ small [(7, 9)] 0x12345 5 3 4 1 with pending := [.coded .port [0xFE, 0x0D]] }))).map
    (fun t => decide (t.sel = 0 ∧ t.ptr = #v[0, 0] ∧ t.inc = #v[0, 0] ∧ t.pal = [] ∧ t.vram = [(7, 9)])) = some true := by
  decide
/-- V2.20, V2.21. -/
theorem test_dummies : (∀ i ∈ [Instr.pr6, .pr7], result i (small [] 1 2 3 4 1) = some (.byte 0)) ∧
    (∀ i ∈ [Instr.pw6, .pw7], after (exec i (small [] 1 2 3 4 1)) = some (small [] 1 2 3 4 1)) := by decide
/-- R167: the carry reaches bits 19:16 (V2.13). -/
theorem test_advance : (after (exec (.advance 0) (small [] 0x0FFFF 0 1 0 0))).map State.ptr = some #v[0x10000, 0] := by decide

/-! ## The video address decoder (95_test_vectors.md 2.1) -/

/-- A state for the addresses of 2.1: each region's first and last byte. -/
def regions : State := { small [(0x1FFFF, 0x31)] 0 0 0 0 0 with
  pal := [(0x1FF, 0xFE)]
  lr := #v[#v[0x20, 0, 0, 0, 0, 0, 0, 0, 0, 0, 0, 0, 0, 0, 0, 0x2F], #v[0x30, 0, 0, 0, 0, 0, 0, 0, 0, 0, 0, 0, 0, 0, 0, 0x3F]] }

/-- V1.2 to V1.17. -/
theorem test_vread : [0x1FFFF, 0x20000, 0x20FFF, 0x21000, 0x3FFFF, 0x40000, 0x4000F, 0x40010, 0x4001F, 0x40020, 0x401FF,
    0x40200, 0x403FF, 0x40400, 0x80000, 0xFFFFF].map (fun a => result (.vread a) regions) =
    ([0x31, 0x01, 0x74, 0xFF, 0xFF, 0x20, 0x2F, 0x30, 0x3F, 0xFF, 0xFF, 0x00, 0xFE, 0xFF, 0xFF, 0xFF].map
      fun v => some (.byte v)) := by decide
/-- V1.2 to V1.17, the column after `VWRITE a, 0x5A`. -/
theorem test_vwrite : [0x1FFFF, 0x20000, 0x20FFF, 0x21000, 0x3FFFF, 0x40000, 0x4000F, 0x40010, 0x4001F, 0x40020, 0x401FF,
    0x40200, 0x403FF, 0x40400, 0x80000, 0xFFFFF].map
      (fun a => (after (exec (.vwrite a 0x5A) regions)).map fun t => vread t a.toNat) =
    ([0x5A, 0x01, 0x74, 0xFF, 0xFF, 0x5A, 0x5A, 0x5A, 0x5A, 0xFF, 0xFF, 0x5A, 0x5A, 0xFF, 0xFF, 0xFF].map some) := by decide
/-- The rows as accesses of their own (R132 to R141). -/
theorem test_vaddr_reads : result (.vaddrRam 0x1FFFF .read) regions = some (.byte 0x31) ∧
    result (.vaddrRom 0xFFF .read) regions = some (.byte 0x74) ∧ result (.vaddrLreg0 15 .read) regions = some (.byte 0x2F) ∧
    result (.vaddrLreg1 15 .read) regions = some (.byte 0x3F) ∧ result (.vaddrPal 0x1FF .read) regions = some (.byte 0xFE) ∧
    (∀ i ∈ [Instr.vaddrUnmapped1 .read, .vaddrUnmapped2 .read, .vaddrUnmapped3 .read],
      result i regions = some (.byte 0xFF)) := by decide
theorem test_vaddr_writes : (after (exec (.vaddrRam 3 (.write 7)) regions)).map State.vram = some [(3, 7), (0x1FFFF, 0x31)] ∧
    (after (exec (.vaddrPal 0x1FF (.write 0)) regions)).map State.pal = some [] ∧
    (∀ i ∈ [Instr.vaddrRom 0 (.write 7), .vaddrUnmapped1 (.write 7), .vaddrUnmapped2 (.write 7), .vaddrUnmapped3 (.write 7)],
      after (exec i regions) = some regions) := by decide

/-! ## Layer properties (95_test_vectors.md 2.3) -/

/-- V3.3. -/
theorem test_props_tile : let P := propsOf (layer 0x61 0x35 0x00 0x08 0x00 0x10 0x05 0x01 0xFF 0x0F)
    P.enabled = true ∧ P.mode = .tile4 ∧ P.bpp = 4 ∧ P.hscale = 1 ∧ P.vscale = 1 ∧ P.mapw = 64 ∧ P.maph = 64 ∧
    P.tilew = 16 ∧ P.tileh = 16 ∧ P.mapBase = 0x02000 ∧ P.tileBase = 0x04000 ∧ P.hscroll = 261 ∧ P.vscroll = 4095 ∧
    P.tileSize = 128 := by decide
/-- V3.9. -/
theorem test_props_bitmap : let P := propsOf (layer 0xA7 0xFF 0xFF 0xFF 0x00 0x00 0x28 0x00 0xFF 0xFF)
    P.mode = .bitmap2 ∧ P.bpp = 2 ∧ P.hscale = 4 ∧ P.vscale = 1 ∧ P.tileBase = 0 ∧ P.stride = 40 ∧ P.palOffset = 0 ∧
    P.hscroll = 0 ∧ P.vscroll = 0 := by decide

/-! ## Pixels (95_test_vectors.md 2.4 to 2.7) -/

/-- V4.1. -/
def v41 : State := { screen (layer 0x01 0 0 0 0 0x80 0 0 0 0) (layer 0 0 0 0 0 0 0 0 0 0) [(0, 0x41), (1, 0x61)] with
  rom := [(0x20A, 0x66)] }
theorem test_text16 : [0, 1, 2, 3, 4, 5, 6, 7].map (fun x => result (.renderText16 0 x 2) v41) =
    ([6, 1, 1, 6, 6, 1, 1, 6].map fun n => some (.index n)) := by decide
/-- V4.2. -/
theorem test_text256 : [16, 17, 23].map (fun x => result (.renderText256 0 x 13)
      (screen (layer 0x21 0x05 0x40 0 0 0x02 0 0 0 0) (layer 0 0 0 0 0 0 0 0 0 0) [(0x184, 0x10), (0x185, 0xC8), (0x885, 0x81)])) =
    ([200, 0, 200].map fun n => some (.index n)) := by decide
/-- V5.2: scroll, scale, both flips, sub-offset. -/
theorem test_tile2 : [30, 31].map (fun y => result (.renderTile2 1 9 y)
      (screen (layer 0 0 0 0 0 0 0 0 0 0) (layer 0x49 0x20 0 0x01 0 0x08 0x04 0 0x02 0)
        [(0x442, 0x03), (0x443, 0x5D), (0x407C, 0x9C)])) = [some (.index 83), some (.index 83)] := by decide
/-- P3, layer 1: pixels 0, 14 and 18 of row 0. -/
theorem test_tile4 : [0, 14, 18].map (fun x => result (.renderTile4 1 x 0)
      (screen (layer 0 0 0 0 0 0 0 0 0 0) (layer 0x63 0x30 0 0 0 0x04 0x08 0 0 0)
        [(0, 0x01), (1, 0x34), (2, 0x01), (3, 0x08), (0x1080, 0x12), (0x1083, 0x78), (0x10F8, 0x0F)])) =
    ([56, 49, 15].map fun n => some (.index n)) := by decide
/-- V5.4. -/
theorem test_tile8 : [13, 14, 15].map (fun x => result (.renderTile8 0 x 6)
      (screen (layer 0x81 0x10 0 0 0 0x10 0 0 0 0) (layer 0 0 0 0 0 0 0 0 0 0)
        [(0, 0x02), (1, 0x10), (0x416D, 0x0F), (0x416E, 0x10)])) =
    ([31, 16, 0].map fun n => some (.index n)) := by decide
/-- V5.8: the fetch reaches the palette. -/
theorem test_tile8_palette : result (.renderTile8 0 0 0)
      { screen (layer 0x81 0 0 0 0 0xFF 0 0 0 0) (layer 0 0 0 0 0 0 0 0 0 0) [(0, 24)] with pal := [(0, 0x9C)] } =
    some (.index 156) := by decide
/-- V6.2. -/
theorem test_bitmap2 : [27, 28].map (fun x => result (.renderBitmap2 0 x 2)
      (screen (layer 0xA7 0xFF 0xFF 0xFF 0 0 0x28 0 0xFF 0xFF) (layer 0 0 0 0 0 0 0 0 0 0) [(0x141, 0xE4)])) =
    [some (.index 1), some (.index 0)] := by decide
/-- V6.3. -/
theorem test_bitmap4 : [((4, 3) : ScreenX × ScreenY), (5, 3), (0, 4), (0, 20)].map (fun p => result (.renderBitmap4 0 p.1 p.2)
      (screen (layer 0xC1 0 0 0 0 0x7F 0x50 0xFF 0 0) (layer 0 0 0 0 0 0 0 0 0 0) [(0x1FFC2, 0x1F)])) =
    ([241, 255, 0, 255].map fun n => some (.index n)) := by decide
/-- V6.1 and V6.5. -/
theorem test_bitmap8 : result (.renderBitmap8 0 10 2)
      (screen (layer 0xE1 0 0 0 0 0x40 0x50 0x02 0 0) (layer 0 0 0 0 0 0 0 0 0 0) [(0x1028A, 0x05)]) = some (.index 37) := by
  decide
/-- V5.1. -/
theorem test_applyOffset : [((0, 15) : ColorIndex × Fin 16), (1, 0), (1, 1), (15, 15), (16, 15), (255, 7), (3, 5)].map
      (fun p => result (.applyOffset p.1 p.2) regions) = ([0, 1, 17, 255, 16, 255, 83].map fun n => some (.index n)) := by decide
/-- V7.1, V7.7: a disabled layer gives 0 whatever it holds. -/
theorem test_render_disabled : result (.render 1 5 7)
      (screen (layer 0 0 0 0 0 0 0 0 0 0) (layer 0xE0 0 0 0 0 0 0 0 0 0) [(5, 0x33)]) = some (.index 0) := by decide
/-- P3: at x = 16 layer 1 is 0 and layer 0 shows; at x = 0 layer 1 hides layer 0. -/
theorem test_composite : [0, 16].map (fun x => result (.composite x 0)
      (screen (layer 0xE1 0 0 0 0 0x40 0x50 0x02 0 0) (layer 0x63 0x30 0 0 0 0x04 0x08 0 0 0)
        [(0, 0x01), (1, 0x34), (2, 0x01), (3, 0x08), (0x1083, 0x78), (0x10F8, 0x0F), (0x10000, 0x05), (0x10010, 0x07)])) =
    [some (.index 56), some (.index 39)] := by decide
/-- V8.4, V8.3, V8.8: bytes to colours. -/
theorem test_palette : [([(0x1FE, 0xA5), (0x1FF, 0x7C)] : Memory), [(0x1FE, 0xFF), (0x1FF, 0xFF)],
      [(0x1FE, 0x21), (0x1FF, 0x03)]].map (fun m => result (.paletteLookup 255) { regions with pal := m }) =
    [some (.colour ⟨0x50, 0xA0, 0xC0⟩), some (.colour ⟨0xF0, 0xF0, 0xF0⟩), some (.colour ⟨0x10, 0x20, 0x30⟩)] := by decide
/-- R253: pixel (1, 3) is bytes 7684 to 7687; the last pixel ends at 1228799. -/
theorem test_frameBufferWrite : (after (exec (.frameBufferWrite 1 3 ⟨1, 0, 3⟩) { regions with fb := [(7685, 9)] })).map State.fb =
      some [(7684, 1), (7686, 3), (7687, 0x5A)] ∧
    (after (exec (.frameBufferWrite 639 479 ⟨1, 2, 3⟩) regions)).map State.fb =
      some [(1228796, 1), (1228797, 2), (1228798, 3), (1228799, 0x5A)] := by decide
/-- V8.9: with both layers disabled every pixel is entry 0; the last one. -/
theorem test_frame :
    memRead (frameCells (screen (layer 0 0 0 0 0 0 0 0 0 0) (layer 0 0 0 0 0 0 0 0 0 0) [])) 1228796 = 0x10 ∧
    memRead (frameCells (screen (layer 0 0 0 0 0 0 0 0 0 0) (layer 0 0 0 0 0 0 0 0 0 0) [])) 1228798 = 0x30 := by
  have h := frameCells_pixel
    (screen (layer 0 0 0 0 0 0 0 0 0 0) (layer 0 0 0 0 0 0 0 0 0 0) []) (x := 639) (y := 479) (by decide) (by decide)
  rw [pixelBase_eq] at h
  exact ⟨h.1.trans (by decide), h.2.2.1.trans (by decide)⟩

/-! ## Reset, power-on, snapshot -/

theorem test_reset : (after (exec .reset (small [(1, 2)] 5 6 7 8 1))).map
    (fun t => decide (t.sel = 1 ∧ t.ptr = #v[0, 0] ∧ t.pal = [] ∧ t.vram = [(1, 2)])) = some true := by decide
/-- V9.3. -/
theorem test_poweron : (after (exec (.poweron okParams) (small [(1, 2)] 5 6 7 8 1))).map
    (fun t => decide (t.sel = 0 ∧ t.ptr = #v[0, 0] ∧ t.vram = [(5, 1)] ∧ t.rom = [])) = some true := by decide
/-- What a step refuses with, if it refuses. -/
def refusal (o : Outcome) : Option Refusal :=
  match o with
  | .next _ => none
  | .fault _ => none
  | .refused e => some e

/-- R9, R293: before `POWERON` nothing else is performed, and after it no second `POWERON`. -/
theorem test_poweron_once :
    refusal (step { State.off with pending := [.coded .port [0, 0x05]] }) = some .notPoweredOn ∧
    (after (step { State.off with pending := [.named (.poweron okParams)] })).map State.poweredOn = some true ∧
    refusal (step { small [] 0 0 0 0 0 with pending := [.named (.poweron okParams)] }) = some .alreadyPoweredOn := by decide
/-- R12, R145: a lone `VWRITE` is no move of the surrounding machine. -/
theorem test_outside_moves :
    refusal (step { small [] 0 0 0 0 0 with pending := [.named (.vwrite 5 6)] }) = some .wrongAgent ∧
    refusal (step { small [] 0 0 0 0 0 with pending := [.coded .vaddr [5, 0, 0, 1, 6]] }) = some .wrongAgent ∧
    refusal (step { small [] 0 0 0 0 0 with alone := some (.coded .port [0, 0x05]) }) = some .wrongAgent ∧
    (after (step { small [] 0 0 0 0 0 with alone := some (.named (.vwrite 5 6)) })).map State.vram = some [(5, 6)] := by decide
theorem test_snapshot : result .snapshot regions = some (.snapshot [(0x1FFFF, 0x31)] [(0x1FF, 0xFE)] regions.lr) := by decide

/-! ## Witnesses: for every statement with hypotheses, a case that meets them, each clause at its boundaries -/

theorem witness_EveryPortPatternIsATransaction :
    (0b0111#4).toNat ≤ 7 ∧ (14 ≤ (0b1110#4).toNat) ∧
    (0b10000001#8).getLsbD 7 = (0b11111111#8).getLsbD 7 ∧ (0b10000001#8).getLsbD 0 = (0b11111111#8).getLsbD 0 := by decide

/-- Both ends of each range of 30_encoding.md R95. -/
theorem witness_AddressPatternsSelectThePrintedRanges :
    [0x00000, 0x1FFFF, 0x20000, 0x20FFF, 0x21000, 0x3FFFF, 0x40000, 0x4000F, 0x40010, 0x4001F, 0x40020, 0x401FF, 0x40200,
      0x403FF, 0x40400, 0xFFFFF].map (fun a => decodeVaddr a .read) =
    [.vaddrRam 0 .read, .vaddrRam 0x1FFFF .read, .vaddrRom 0 .read, .vaddrRom 0xFFF .read, .vaddrUnmapped1 .read,
      .vaddrUnmapped1 .read, .vaddrLreg0 0 .read, .vaddrLreg0 15 .read, .vaddrLreg1 0 .read, .vaddrLreg1 15 .read,
      .vaddrUnmapped2 .read, .vaddrUnmapped2 .read, .vaddrPal 0 .read, .vaddrPal 0x1FF .read, .vaddrUnmapped3 .read,
      .vaddrUnmapped3 .read] := by decide

/-- A state with one port request pending. -/
def asked : State := { small [] 0 0 0 0 0 with pending := [.coded .port [0x5A, 0x0B]] }

/-- A port transaction; `POWERON`; an operation of the block's own. -/
theorem witness_StepRunsTheDecodedOperation :
    (asked.pending = [.coded .port [0x5A, 0x0B]] ∧ asked.alone = none ∧
      decode (.coded .port [0x5A, 0x0B]) = .ok (.pw3 0x5A) ∧ (Instr.pw3 0x5A).wellFormed = true ∧
      isHostMove (.pw3 0x5A) = true ∧ asked.poweredOn = !isPowerOn (.pw3 0x5A)) ∧
    (decode (.named (.poweron okParams)) = .ok (.poweron okParams) ∧ (Instr.poweron okParams).wellFormed = true ∧
      isHostMove (.poweron okParams) = true ∧ State.off.poweredOn = !isPowerOn (.poweron okParams)) ∧
    (decode (.named (.vread 5)) = .ok (.vread 5) ∧ (Instr.vread 5).wellFormed = true ∧ isHostMove (.vread 5) = false ∧
      asked.poweredOn = !isPowerOn (.vread 5)) :=
  ⟨⟨rfl, rfl, rfl, rfl, rfl, rfl⟩, ⟨rfl, by decide, rfl, rfl⟩, rfl, rfl, rfl, rfl⟩
theorem witness_StepRunsAnyEncodedOperation :
    ((Instr.poweron okParams).wellFormed = true ∧ State.off.poweredOn = !isPowerOn (.poweron okParams) ∧
      isHostMove (.poweron okParams) = true) ∧
    ((Instr.renderTile2 1 639 479).wellFormed = true ∧ asked.poweredOn = !isPowerOn (.renderTile2 1 639 479) ∧
      isHostMove (.renderTile2 1 639 479) = false) := by decide
theorem witness_StepWithNothingRequestedHoldsTheState :
    (small [] 1 2 3 4 1).pending = [] ∧ (small [] 1 2 3 4 1).alone = none := ⟨rfl, rfl⟩

/-- A mode request for a layer, a column and a row given by their bytes. -/
def modeAsked (l x0 x1 y0 y1 : Byte) : State :=
  { small [] 0 0 0 0 0 with alone := some (.coded .mode [0#5 ++ 0#3, l, x0, x1, y0, y1]) }

/-- Layer 2; column 640; row 480; and the last pixel of layer 1. -/
theorem witness_OperandsOutOfRangeAreRefused :
    after (step (modeAsked 2 0 0 0 0)) = none ∧ after (step (modeAsked 1 0x80 0x02 0 0)) = none ∧
    after (step (modeAsked 1 0x7F 0x02 0xE0 0x01)) = none ∧ (after (step (modeAsked 1 0x7F 0x02 0xDF 0x01))).isSome = true := by
  decide
theorem witness_PowerOnNeedsTheParameterConstraints :
    OpenParamsOk okParams ∧ ¬ OpenParamsOk { okParams with vramInit := [(0x20000, 1)] } ∧
    State.off.alone = none ∧ State.off.poweredOn = false ∧ asked.alone = none ∧ asked.poweredOn = true := by decide

theorem witness_DataPortsAreIndependentButShareTheSpace :
    (∃ t, exec .pr3 (small [] 5 5 1 1 0) = .next t) ∧ (∃ t, exec (.pw4 9) (small [] 5 5 1 1 0) = .next t) ∧
    (∀ p ∈ [0x1FFFF#20, 0x40000, 0x403FF], ((small [] p p 1 1 0).ptr.get 0).toNat = p.toNat ∧
      ((small [] p p 1 1 0).ptr.get 1).toNat = p.toNat) ∧
    (0x1FFFF ≤ 0x1FFFF ∧ 0x40000 ≤ 0x4001F ∧ 0x40200 ≤ 0x403FF) ∧
    (∃ t u, exec (.pw3 9) (small [] 0x1FFFF 0x1FFFF 1 1 0) = .next t ∧ exec .pr4 t = .next u) ∧
    (∃ t u, exec (.pw4 9) (small [] 0x403FF 0x403FF 1 1 0) = .next t ∧ exec .pr3 t = .next u) :=
  ⟨⟨_, rfl⟩, ⟨_, rfl⟩, fun _ _ => ⟨rfl, rfl⟩, by decide, ⟨_, _, rfl, rfl⟩, ⟨_, _, rfl, rfl⟩⟩
theorem witness_DataPortsIgnoreTheSelector : ∀ i ∈ [Instr.pr3, .pr4, .pw3 1, .pw4 2],
    (after (exec i (small [] 5 6 1 1 0))).isSome = true := by decide

/-- Both ends of each range of 40_address_space.md R130. -/
theorem witness_VreadAnswersTheByteOfTheRegion :
    (0x1FFFF#20).toNat ≤ 0x1FFFF ∧ 0x20000 ≤ (0x20000#20).toNat ∧ (0x20FFF#20).toNat ≤ 0x20FFF ∧
    0x21000 ≤ (0x21000#20).toNat ∧ (0x3FFFF#20).toNat ≤ 0x3FFFF ∧
    (0x40000#20).toNat = 0x40000 + 16 * (0 : LayerId).val + (0 : Fin 16).val ∧
    (0x4001F#20).toNat = 0x40000 + 16 * (1 : LayerId).val + (15 : Fin 16).val ∧
    0x40020 ≤ (0x40020#20).toNat ∧ (0x401FF#20).toNat ≤ 0x401FF ∧ 0x40200 ≤ (0x40200#20).toNat ∧
    (0x403FF#20).toNat ≤ 0x403FF ∧ 0x40400 ≤ (0x40400#20).toNat := by decide
theorem witness_ReadAfterWriteAndNoAliasing :
    (0x1FFFF#20).toNat ≤ 0x1FFFF ∧ 0x40000 ≤ (0x40000#20).toNat ∧ (0x4001F#20).toNat ≤ 0x4001F ∧
    0x40200 ≤ (0x40200#20).toNat ∧ (0x403FF#20).toNat ≤ 0x403FF ∧
    0x20000 ≤ (0x20000#20).toNat ∧ (0x3FFFF#20).toNat ≤ 0x3FFFF ∧ 0x40020 ≤ (0x40020#20).toNat ∧
    (0x401FF#20).toNat ≤ 0x401FF ∧ 0x40400 ≤ (0x40400#20).toNat ∧ (0x40010#20) ≠ 0x00010#20 := by decide
theorem witness_AddressRowsReadAndWriteTheirTargets :
    Instr.vaddrUnmapped3 .read ∈ [Instr.vaddrUnmapped1 .read, .vaddrUnmapped2 .read, .vaddrUnmapped3 .read] ∧
    Instr.vaddrUnmapped1 (.write 5) ∈ [Instr.vaddrUnmapped1 (.write 5), .vaddrUnmapped2 (.write 5),
      .vaddrUnmapped3 (.write 5)] := by decide

/-- A layer of each class. -/
theorem witness_PropsFollowTheRegisters :
    (propsOf (layer 0x3F 0 0 0 0 0 0 0 0 0)).cls = .text ∧ (propsOf (layer 0x40 0 0 0 0 0 0 0 0 0)).cls = .tile ∧
    (propsOf (layer 0x9F 0 0 0 0 0 0 0 0 0)).cls = .tile ∧ (propsOf (layer 0xA0 0 0 0 0 0 0 0 0 0)).cls = .bitmap := by decide
/-- Two layers that differ in registers 10 to 15 only, of states that differ elsewhere too. -/
theorem witness_PropsReadRegistersZeroToNineOnly :
    let r : LayerRegs := #v[0xA1, 1, 2, 3, 4, 5, 6, 7, 8, 9, 0, 0, 0, 0, 0, 0]
    let r' : LayerRegs := #v[0xA1, 1, 2, 3, 4, 5, 6, 7, 8, 9, 1, 2, 3, 4, 5, 6]
    r ≠ r' ∧ ∀ i : Fin 16, i.val ≤ 9 → (((screen r r []).lr.get 1).get i) = (((screen r' r' [(1, 2)]).lr.get 1).get i) := by
  decide
theorem witness_PropsStayInTheirRanges :
    (propsOf (layer 0x9F 0xFF 0xFF 0xFF 0xFF 0xFF 0xFF 0xFF 0xFF 0xFF)).cls ≠ .bitmap ∧
    (propsOf (layer 0xFF 0xFF 0xFF 0xFF 0xFF 0xFF 0xFF 0xFF 0xFF 0xFF)).cls = .bitmap := by decide
/-- Two disabled layers; two tile layers; two text layers; two bitmap layers, differing in ignored bits only. -/
theorem witness_IgnoredRegisterBitsChangeNoPixel :
    reg (layer 0xE0 1 2 3 4 5 6 7 8 9) 0 % 2 = 0 ∧ reg (layer 0x40 0 0 0 0 0 0 0 0 0) 0 % 2 = 0 ∧
    (let r := layer 0x9F 0x3F 1 2 3 4 5 0xF6 7 0xF8; let r' := layer 0x9F 0xFF 1 2 3 4 5 0x06 7 0x08
      reg r 0 = reg r' 0 ∧ reg r 0 / 32 ≤ 4 ∧
      reg r 1 % (if reg r 0 / 32 ≤ 1 then 16 else 64) = reg r' 1 % (if reg r 0 / 32 ≤ 1 then 16 else 64) ∧
      (∀ i ∈ [2, 3, 4, 5, 6, 8], reg r i = reg r' i) ∧ reg r 7 % 16 = reg r' 7 % 16 ∧ reg r 9 % 16 = reg r' 9 % 16) ∧
    (let r := layer 0x3F 0x0F 1 2 3 4 5 0xF6 7 0xF8; let r' := layer 0x3F 0xFF 1 2 3 4 5 0x06 7 0x08
      reg r 0 = reg r' 0 ∧ reg r 0 / 32 ≤ 1 ∧ reg r 1 % 16 = reg r' 1 % 16) ∧
    (let r := layer 0xA1 0 1 2 3 4 5 0xF6 7 0xF8; let r' := layer 0xA1 0xFF 9 9 3 4 5 0x06 9 9
      reg r 0 = reg r' 0 ∧ 5 ≤ reg r 0 / 32 ∧ (∀ i ∈ [4, 5, 6], reg r i = reg r' i) ∧ reg r 7 % 16 = reg r' 7 % 16) := by
  decide

/-- A state whose two layers hold the given bytes in register 0. -/
def modes (m0 m1 : Byte) : State := screen (layer m0 0 0 0 0 0 0 0 0 0) (layer m1 0 0 0 0 0 0 0 0 0) []

/-- Register 0 of a layer of a state, as a number. -/
def reg0 (s : State) (L : LayerId) : Nat := ((s.lr.get L).get 0).toNat

theorem witness_TextModesFollowTheirRules :
    reg0 (modes 0x1F 0x3F) 0 / 32 = 0 ∧ reg0 (modes 0x1F 0x3F) 1 / 32 = 1 := by decide
theorem witness_TileModesFollowTheirRules :
    reg0 (modes 0x40 0x7F) 0 / 32 = 2 ∧ reg0 (modes 0x40 0x7F) 1 / 32 = 3 ∧ reg0 (modes 0x9F 0) 0 / 32 = 4 := by decide
theorem witness_BitmapModesFollowTheirRules :
    reg0 (modes 0xA0 0xDF) 0 / 32 = 5 ∧ reg0 (modes 0xA0 0xDF) 1 / 32 = 6 ∧ reg0 (modes 0 0xFF) 1 / 32 = 7 := by decide
theorem witness_ApplyOffsetMovesOneToFifteen :
    (0 : ColorIndex).val = 0 ∧ 1 ≤ (1 : ColorIndex).val ∧ (15 : ColorIndex).val ≤ 15 ∧ 16 ≤ (16 : ColorIndex).val := by decide
theorem witness_RenderGatesAndDispatches :
    reg0 (modes 0xFE 0) 0 % 2 = 0 ∧
    ([0x01, 0x21, 0x41, 0x61, 0x81, 0xA1, 0xC1, 0xE1].map fun m => (reg0 (modes 0 m) 1 % 2, reg0 (modes 0 m) 1 / 32)) =
    [(1, 0), (1, 1), (1, 2), (1, 3), (1, 4), (1, 5), (1, 6), (1, 7)] := by decide

/-- Fetches that agree up to the bound and differ above it; a tile layer. -/
theorem witness_RendererFetchesStayInRange :
    (∀ a ≤ 0xB76FF, (fun _ : Nat => (0 : Byte)) a = (fun a => if a ≤ 0xB76FF then 0 else 1) a) ∧
    (∀ a ≤ 0x7FFFB, (fun _ : Nat => (0 : Byte)) a = (fun a => if a ≤ 0x7FFFB then 0 else 1) a) ∧
    ((layer 0x9F 0 0 0 0 0 0 0 0 0).get 0).toNat / 32 ≤ 4 :=
  ⟨fun a h => (if_pos h).symm, fun a h => (if_pos h).symm, by decide⟩

/-- Every pixel of the screen, column by column. -/
def allPixels : List (ScreenX × ScreenY) :=
  (List.finRange 640).flatMap fun x => (List.finRange 480).map fun y => (x, y)

theorem witness_FrameIsThePixelLoopInAnyOrder :
    Memory.wf Config.fbSize (small [] 0 0 0 0 0).fb ∧ ∀ p, p ∈ allPixels := by
  refine ⟨nil_wf _, fun p => ?_⟩
  simp [allPixels]

/-- A request of the block's own operation, and a port transaction. -/
theorem witness_OutsideStartsItsOwnMovesOnly :
    (decode (.named (.vwrite 5 6)) = .ok (.vwrite 5 6) ∧ isHostMove (.vwrite 5 6) = false) ∧
    (asked.alone = none ∧ asked.pending = [.coded .port [0x5A, 0x0B]] ∧ decode (.coded .port [0x5A, 0x0B]) = .ok (.pw3 0x5A) ∧
      isHostMove (.pw3 0x5A) = true ∧ isPowerOn (.pw3 0x5A) = false ∧ asked.poweredOn = true) :=
  ⟨⟨rfl, rfl⟩, rfl, rfl, rfl, rfl, rfl, rfl⟩
/-- A step of a block that is powered on; of one that is not, with nothing to do and with a `POWERON`. -/
theorem witness_PowerOnHappensOnceBeforeAnythingElse :
    (asked.poweredOn = true ∧ (after (step asked)).isSome = true) ∧
    (State.off.poweredOn = false ∧ (after (step State.off)).isSome = true) ∧
    (after (step { State.off with pending := [.named (.poweron okParams)] })).isSome = true := by decide
/-- Moves that change VRAM; the palette and a layer register; pointers and steps; the selector. -/
theorem witness_OutsideMovesWriteTheirColumnsOnly :
    asked.alone = none ∧ asked.poweredOn = true ∧ (after (step asked)).map (fun t => decide (t.vram ≠ asked.vram)) = some true ∧
    (let s := { asked with pending := [.coded .port [0xFE, 0x0D]], lr := regions.lr };
      (after (step s)).map (fun t => decide (t.pal ≠ s.pal ∧ t.lr ≠ s.lr)) = some true) ∧
    (let s := { asked with pending := [.coded .port [0x34, 0x08]] };
      (after (step s)).map (fun t => decide (t.ptr ≠ s.ptr ∧ t.inc ≠ s.inc)) = some true) ∧
    (let s := { asked with pending := [.coded .port [0x01, 0x0D]] };
      (after (step s)).map (fun t => decide (t.sel ≠ s.sel)) = some true) := by decide
/-- A run of one step that performs an operation, and one that has nothing to do. -/
theorem witness_FrameBufferFeedsBackIntoNothing :
    (∃ t, core.run 1 asked = .next t) ∧ asked.pending ≠ [] ∧
    (∃ t, core.run 3 State.reset = .next t) ∧ State.reset.pending = [] ∧ State.reset.alone = none :=
  ⟨⟨_, rfl⟩, by decide, ⟨_, rfl⟩, rfl, rfl⟩
theorem witness_AfterResetTheFixedReadsHold : (small [(0, 5)] 1 2 3 4 1).Inv := by decide

theorem witness_SnapshotCopiesTheStores : (0x1FFFF ≤ 0x1FFFF) ∧ (0x1FF ≤ 0x1FF) := by decide

theorem witness_EveryStepKeepsTheInvariant : asked.Inv ∧ ∃ t, step asked = .next t := ⟨by decide, ⟨_, rfl⟩⟩

/-- For each piece of state an operation that changes it. -/
theorem witness_AccessMatrixOfWrites :
    (after (exec (.poweron okParams) regions)).map (fun t => decide (t.rom ≠ regions.rom ∧ t.vram ≠ regions.vram)) = some true ∧
    (after (exec (.poweron { okParams with reset := { smallParams with fbPad := 1 } }) regions)).map
      (fun t => decide (t.params ≠ regions.params)) = some true ∧
    (after (exec (.pw3 5) regions)).map (fun t => decide (t.vram ≠ regions.vram)) = some true ∧
    (after (exec .reset regions)).map (fun t => decide (t.pal ≠ regions.pal ∧ t.lr ≠ regions.lr)) = some true ∧
    (after (exec (.pw0 3 4) regions)).map (fun t => decide (t.ptr ≠ regions.ptr ∧ t.inc ≠ regions.inc)) = some true ∧
    (after (exec (.pw5Select 1) regions)).map (fun t => decide (t.sel ≠ regions.sel)) = some true ∧
    (after (exec (.frameBufferWrite 0 0 ⟨1, 2, 3⟩) regions)).map (fun t => decide (t.fb ≠ regions.fb)) = some true ∧
    (after (exec (.poweron okParams) State.off)).map (fun t => decide (t.poweredOn ≠ State.off.poweredOn)) = some true := by
  decide

end Sys2Proof.Tests
end

section
/-! PROOFS. What `VREAD` answers in each region of the video address space (spec/40_address_space.md). -/

namespace Sys2Proof.Machine

theorem exec_vread (s : State) (a : VAddr) :
    exec (.vread a) s = .next { s with answer := .byte (vread s a.toNat) } := rfl

/-- `VREAD` of VRAM (40_address_space.md R132). -/
theorem vread_ram (s : State) {a : Nat} (h : a ≤ 0x1FFFF) : vread s a = memRead s.vram a := by
  rw [vread, region_ram h, regionRead]

/-- `VREAD` of the character ROM (R134). -/
theorem vread_rom (s : State) {a : Nat} (h : 0x20000 ≤ a) (h' : a ≤ 0x20FFF) :
    vread s a = memRead s.rom (a - 0x20000) := by
  rw [vread, region_rom h h', regionRead]

/-- `VREAD` of a layer register (R138). -/
theorem vread_lreg (s : State) (L : LayerId) (i : Fin 16) :
    vread s (0x40000 + 16 * L.val + i.val) = (s.lr.get L).get i := by
  rw [vread, region_lreg, regionRead]

/-- `VREAD` of the palette (R140). -/
theorem vread_pal (s : State) {a : Nat} (h : 0x40200 ≤ a) (h' : a ≤ 0x403FF) :
    vread s a = memRead s.pal (a - 0x40200) := by
  rw [vread, region_pal h h', regionRead]

/-- `VREAD` of the three unmapped ranges (R136). -/
theorem vread_unmapped (s : State) {a : Nat} (ha : a < 2 ^ 20)
    (h : (0x21000 ≤ a ∧ a ≤ 0x3FFFF) ∨ (0x40020 ≤ a ∧ a ≤ 0x401FF) ∨ 0x40400 ≤ a) : vread s a = 0xFF := by
  rw [vread, region_unmapped ha h, regionRead, Config.unmappedRead]

/-- Settles O21: the byte answered is `vread s a`, given in each range by the lemma of its region. -/
theorem vreadAnswersTheByteOfTheRegion : Obligations.VreadAnswersTheByteOfTheRegion := by
  intro s a
  refine ⟨vread s a.toNat, exec_vread s a, vread_ram s, vread_rom s, ?unmapped1, ?lreg, ?unmapped2, vread_pal s,
    ?unmapped3⟩
  case unmapped1 => exact fun h h' => vread_unmapped s a.isLt (.inl ⟨h, h'⟩)
  case lreg => intro L i ha; rw [ha, vread_lreg]
  case unmapped2 => exact fun h h' => vread_unmapped s a.isLt (.inr (.inl ⟨h, h'⟩))
  case unmapped3 => exact fun h => vread_unmapped s a.isLt (.inr (.inr h))

end Sys2Proof.Machine
end

section
/-! PROOFS. The port transactions (spec/41_io_ports.md): the pointer window of ports 0 to 2, the data ports 3 and 4, the
advance of a pointer, and the dummy ports 6 and 7. -/

namespace Sys2Proof.Machine

/-! ## What each transaction answers -/

theorem exec_pr0 (s : State) : exec .pr0 s = .next { s with answer := .byte (window0 s) } := rfl
theorem exec_pr1 (s : State) : exec .pr1 s = .next { s with answer := .byte (window1 s) } := rfl
theorem exec_pr2 (s : State) : exec .pr2 s = .next { s with answer := .byte (window2 s) } := rfl
theorem exec_pw0 (s : State) (step addrH : BitVec 4) :
    exec (.pw0 step addrH) s = .next { setWindow0 s step addrH with answer := .none } := rfl
theorem exec_pw1 (s : State) (v : Byte) : exec (.pw1 v) s = .next { setWindow1 s v with answer := .none } := rfl
theorem exec_pw2 (s : State) (v : Byte) : exec (.pw2 v) s = .next { setWindow2 s v with answer := .none } := rfl
theorem exec_pr3 (s : State) : exec .pr3 s = .next (dataPortRead s 0) := rfl
theorem exec_pr4 (s : State) : exec .pr4 s = .next (dataPortRead s 1) := rfl
theorem exec_pw3 (s : State) (v : Byte) : exec (.pw3 v) s = .next (dataPortWrite s 0 v) := rfl
theorem exec_pw4 (s : State) (v : Byte) : exec (.pw4 v) s = .next (dataPortWrite s 1 v) := rfl
theorem exec_pr6 (s : State) : exec .pr6 s = .next { s with answer := .byte 0 } := rfl
theorem exec_pr7 (s : State) : exec .pr7 s = .next { s with answer := .byte 0 } := rfl
theorem exec_pw6 (s : State) : exec .pw6 s = .next { s with answer := .none } := rfl
theorem exec_pw7 (s : State) : exec .pw7 s = .next { s with answer := .none } := rfl
theorem exec_advance (s : State) (k : PtrId) : exec (.advance k) s = .next { advance s k with answer := .none } := rfl

/-! ## The pointer window as numbers -/

/-- The port 0 byte: the step above address bits 19:16 (41_io_ports.md R152). -/
theorem window0_toNat (s : State) :
    (window0 s).toNat = 16 * (s.inc.get (selected s)).toNat + (s.ptr.get (selected s)).toNat / 2 ^ 16 := by
  have := (s.ptr.get (selected s)).isLt
  rw [window0, append_toNat, BitVec.extractLsb'_toNat, Nat.shiftRight_eq_div_pow]
  omega

/-- The port 1 byte: address bits 15:8 (R154). -/
theorem window1_toNat (s : State) : (window1 s).toNat = (s.ptr.get (selected s)).toNat / 2 ^ 8 % 2 ^ 8 := by
  rw [window1, BitVec.extractLsb'_toNat, Nat.shiftRight_eq_div_pow]

/-- The port 2 byte: address bits 7:0 (R156). -/
theorem window2_toNat (s : State) : (window2 s).toNat = (s.ptr.get (selected s)).toNat % 2 ^ 8 := by
  rw [window2, BitVec.extractLsb'_toNat, Nat.shiftRight_zero]

/-- An address with bits 19:16 replaced (R153). -/
theorem replace_high_toNat (p : VAddr) (h : BitVec 4) :
    (h ++ p.extractLsb' 0 16 : VAddr).toNat = h.toNat * 2 ^ 16 + p.toNat % 2 ^ 16 := by
  rw [append_toNat, BitVec.extractLsb'_toNat, Nat.shiftRight_zero]

/-- An address with bits 15:8 replaced (R155). -/
theorem replace_middle_toNat (p : VAddr) (v : Byte) :
    (p.extractLsb' 16 4 ++ v ++ p.extractLsb' 0 8 : VAddr).toNat =
      p.toNat / 2 ^ 16 * 2 ^ 16 + v.toNat * 2 ^ 8 + p.toNat % 2 ^ 8 := by
  have := p.isLt
  rw [append_toNat, append_toNat, BitVec.extractLsb'_toNat, BitVec.extractLsb'_toNat, Nat.shiftRight_zero,
    Nat.shiftRight_eq_div_pow]
  omega

/-- An address with bits 7:0 replaced (R157). -/
theorem replace_low_toNat (p : VAddr) (v : Byte) :
    (p.extractLsb' 8 12 ++ v : VAddr).toNat = p.toNat / 2 ^ 8 * 2 ^ 8 + v.toNat := by
  have := p.isLt
  rw [append_toNat, BitVec.extractLsb'_toNat, Nat.shiftRight_eq_div_pow]
  omega

/-- Settles O10: the three bytes are the window's, given as numbers. -/
theorem windowReadsShowTheSelectedPointer : Obligations.WindowReadsShowTheSelectedPointer :=
  fun s => ⟨⟨_, window0_toNat s, exec_pr0 s⟩, ⟨_, window1_toNat s, exec_pr1 s⟩, _, window2_toNat s, exec_pr2 s⟩

/-- Settles O11: each write puts its bits into the selected pointer, given as a number. -/
theorem windowWritesSetTheSelectedPointer : Obligations.WindowWritesSetTheSelectedPointer := by
  refine fun s => ⟨fun step addrH => ⟨_, replace_high_toNat _ addrH, ?_⟩,
    fun v => ⟨_, replace_middle_toNat _ v, ?_⟩, fun v => ⟨_, replace_low_toNat _ v, ?_⟩⟩
  · rw [exec_pw0, setWindow0_eq]; rfl
  · rw [exec_pw1, setWindow1_eq]; rfl
  · rw [exec_pw2, setWindow2_eq]; rfl

/-! ## The data ports -/

/-- Settles O13: a data port read, for pointer 0 and for pointer 1. -/
theorem dataPortReadsAnswerThenAdvance : Obligations.DataPortReadsAnswerThenAdvance := by
  refine fun s => ⟨⟨_, pointer_add_toNat _ _, ?_⟩, _, pointer_add_toNat _ _, ?_⟩
  · rw [exec_pr3, dataPortRead_eq]; rfl
  · rw [exec_pr4, dataPortRead_eq]; rfl

/-- Settles O14: a data port write, for pointer 0 and for pointer 1. -/
theorem dataPortWritesStoreThenAdvance : Obligations.DataPortWritesStoreThenAdvance := by
  refine fun s v => ⟨⟨_, pointer_add_toNat _ _, ?_⟩, _, pointer_add_toNat _ _, ?_⟩
  · rw [exec_pw3, dataPortWrite_eq]; rfl
  · rw [exec_pw4, dataPortWrite_eq]; rfl

/-- Settles O17: the pointer moves to the sum, a number modulo 2^20. -/
theorem advanceMovesByTheStepModulo : Obligations.AdvanceMovesByTheStepModulo :=
  fun s k => ⟨_, pointer_add_toNat _ _, by rw [exec_advance, advance_eq]⟩

/-! ## Independence of the data ports -/

/-- A state with pointer `j` and its step replaced. -/
def withPointer (s : State) (j : PtrId) (p : VAddr) (n : BitVec 4) : State :=
  { s with ptr := s.ptr.set j p, inc := s.inc.set j n }

/-- An operation that neither writes nor reads pointer `j` and its step: it leaves both, and replacing them before it comes
to the same as replacing them after it (41_io_ports.md R162). -/
def IgnoresPointer (j : PtrId) (f : State → State) : Prop :=
  ∀ s p n, (f s).ptr.get j = s.ptr.get j ∧ (f s).inc.get j = s.inc.get j ∧
    f (withPointer s j p n) = withPointer (f s) j p n

/-- The pointer and the step of another number than the replaced one. -/
theorem withPointer_get_other {j k : PtrId} (h : k ≠ j) (s : State) (p : VAddr) (n : BitVec 4) :
    (withPointer s j p n).ptr.get k = s.ptr.get k ∧ (withPointer s j p n).inc.get k = s.inc.get k :=
  ⟨(vector_get_set _ _ _ _).trans (if_neg h), (vector_get_set _ _ _ _).trans (if_neg h)⟩

/-- `VREAD` does not read the pointers. -/
theorem vread_withPointer (s : State) (j : PtrId) (p : VAddr) (n : BitVec 4) (a : Nat) :
    vread (withPointer s j p n) a = vread s a := vread_congr rfl rfl rfl rfl a

/-- `VWRITE` neither reads nor writes the pointers. -/
theorem vwrite_withPointer (s : State) (j : PtrId) (p : VAddr) (n : BitVec 4) (a : Nat) (v : Byte) :
    vwrite (withPointer s j p n) a v = withPointer (vwrite s a v) j p n := by
  rw [vwrite, vwrite]
  cases region a <;> rfl

/-- `Advance(k)` moves its own pointer by its own step. -/
theorem ignoresPointer_advance {j k : PtrId} (h : k ≠ j) : IgnoresPointer j (advance · k) := by
  refine fun s p n => ⟨(advance_ptr_get s k j).trans (if_neg h.symm), rfl, ?_⟩
  obtain ⟨hptr, hinc⟩ := withPointer_get_other h s p n
  beta_reduce
  rw [advance_eq, advance_eq, hptr, hinc, withPointer, withPointer, Vector.set_comm _ _ (Fin.val_ne_of_ne h.symm)]

theorem ignoresPointer_dataPortRead {j k : PtrId} (h : k ≠ j) : IgnoresPointer j (dataPortRead · k) := by
  intro s p n
  obtain ⟨hptr, hinc, hcomm⟩ := ignoresPointer_advance h s p n
  refine ⟨hptr, hinc, ?_⟩
  simp only [dataPortRead, hcomm, vread_withPointer, (withPointer_get_other h s p n).1]
  rfl

theorem ignoresPointer_dataPortWrite {j k : PtrId} (h : k ≠ j) (v : Byte) :
    IgnoresPointer j (dataPortWrite · k v) := by
  intro s p n
  obtain ⟨hptr, hinc, hcomm⟩ := ignoresPointer_advance h (vwrite s (s.ptr.get k).toNat v) p n
  refine ⟨hptr.trans (by rw [vwrite, regionWrite_ptr]), hinc.trans (by rw [vwrite, regionWrite_inc]), ?_⟩
  simp only [dataPortWrite, (withPointer_get_other h s p n).1, vwrite_withPointer, hcomm]
  rfl

/-- The independence of an operation whose meaning is a state function. -/
theorem exec_ignoresPointer {i : Instr} {j : PtrId} {f : State → State} (hi : ∀ s, exec i s = .next (f s))
    (hf : IgnoresPointer j f) {s t : State} (p : VAddr) (n : BitVec 4) (h : exec i s = .next t) :
    t.ptr.get j = s.ptr.get j ∧ t.inc.get j = s.inc.get j ∧
      exec i (withPointer s j p n) = .next (withPointer t j p n) := by
  obtain rfl : f s = t := Host.Outcome.next.inj ((hi s).symm.trans h)
  obtain ⟨hptr, hinc, hcomm⟩ := hf s p n
  exact ⟨hptr, hinc, by rw [hi, hcomm]⟩

/-- A byte written through pointer `k` is read through another pointer at the same address, if the address stores. -/
theorem dataPortRead_dataPortWrite {j k : PtrId} (h : j ≠ k) (s : State) (v : Byte)
    (hp : (s.ptr.get j).toNat = (s.ptr.get k).toNat) (hs : regionStores (region (s.ptr.get k).toNat) = true) :
    (dataPortRead (dataPortWrite s k v) j).answer = .byte v := by
  obtain ⟨-, -, -, -, -, -, -, -, hptr⟩ := dataPortWrite_frame s k v
  have hread : vread (dataPortWrite s k v) (s.ptr.get k).toNat = v :=
    calc vread (dataPortWrite s k v) (s.ptr.get k).toNat
      _ = vread (vwrite s (s.ptr.get k).toNat v) (s.ptr.get k).toNat := vread_congr rfl rfl rfl rfl _
      _ = v := by rw [vread_vwrite, if_pos ⟨rfl, hs⟩]
  rw [dataPortRead, give_answer, hptr j h, hp, hread]

/-- The same of the transactions: `w` writes through pointer `k`, then `r` reads through pointer `j`. -/
theorem exec_read_after_write {w r : Instr} {j k : PtrId} {v : Byte} (hw : ∀ s, exec w s = .next (dataPortWrite s k v))
    (hr : ∀ s, exec r s = .next (dataPortRead s j)) (h : j ≠ k) {s t u : State}
    (hp : (s.ptr.get j).toNat = (s.ptr.get k).toNat) (hs : regionStores (region (s.ptr.get k).toNat) = true)
    (hwt : exec w s = .next t) (hru : exec r t = .next u) : u.answer = .byte v := by
  obtain rfl := Host.Outcome.next.inj ((hw s).symm.trans hwt)
  obtain rfl := Host.Outcome.next.inj ((hr _).symm.trans hru)
  exact dataPortRead_dataPortWrite h s v hp hs

/-- Settles O15: a data port ignores the pointer of the other one, and reads what the other one wrote. -/
theorem dataPortsAreIndependentButShareTheSpace : Obligations.DataPortsAreIndependentButShareTheSpace := by
  refine ⟨?port3, ?port4, ?shared⟩
  case port3 =>
    rintro s t i p n (rfl | ⟨v, rfl⟩) h
    · exact exec_ignoresPointer exec_pr3 (ignoresPointer_dataPortRead (by decide)) p n h
    · exact exec_ignoresPointer (exec_pw3 · v) (ignoresPointer_dataPortWrite (by decide) v) p n h
  case port4 =>
    rintro s t i p n (rfl | ⟨v, rfl⟩) h
    · exact exec_ignoresPointer exec_pr4 (ignoresPointer_dataPortRead (by decide)) p n h
    · exact exec_ignoresPointer (exec_pw4 · v) (ignoresPointer_dataPortWrite (by decide) v) p n h
  case shared =>
    intro s t u v a h0 h1 ha
    have hs : regionStores (region a) = true := (regionStores_region_iff (h0 ▸ (s.ptr.get 0).isLt)).mpr ha
    exact ⟨exec_read_after_write (exec_pw3 · v) exec_pr4 (by decide) (h1.trans h0.symm) (h0 ▸ hs),
      exec_read_after_write (exec_pw4 · v) exec_pr3 (by decide) (h0.trans h1.symm) (h1 ▸ hs)⟩

/-! ## The dummy ports -/

/-- Every pattern of a write to port 6 is the one transaction (30_encoding.md R90). -/
theorem decode_encodePort_pw6 (v : Byte) : decode (encodePort 0b1110 v) = .ok .pw6 := by
  rw [decode_encodePort]
  simp [decodePort, port_pattern_head]

/-- Every pattern of a write to port 7 is the one transaction (R90). -/
theorem decode_encodePort_pw7 (v : Byte) : decode (encodePort 0b1111 v) = .ok .pw7 := by
  rw [decode_encodePort]
  simp [decodePort, port_pattern_head]

/-- Settles O20: reads answer 0, and a write of any byte decodes to the ignored transaction. -/
theorem dummyPortsReadZeroAndIgnoreWrites : Obligations.DummyPortsReadZeroAndIgnoreWrites :=
  fun s v => ⟨exec_pr6 s, exec_pr7 s, ⟨.pw6, decode_encodePort_pw6 v, rfl, exec_pw6 s⟩,
    .pw7, decode_encodePort_pw7 v, rfl, exec_pw7 s⟩

end Sys2Proof.Machine
end

section
/-! PROOFS. The layer properties (spec/42_layer_config.md): what `Props(L)` reads. -/

namespace Sys2Proof.Machine

/-- What `Props(L)` does: it records the layer's properties as its answer (42_layer_config.md R195). -/
theorem exec_props (L : LayerId) (s : State) :
    exec (.props L) s = .next { s with answer := .props (propsOf (s.lr.get L)) } := rfl

/-! ## Registers 0 to 9 -/

section
variable {r r' : LayerRegs} (h : ∀ i : Fin 16, i.val ≤ 9 → r.get i = r'.get i)
include h

/-- The argument of the unused fields is made of registers 0 to 9 (R180, log 9). -/
theorem propRegs_congr : propRegs r = propRegs r' := by simp [propRegs, h]

/-- Each of these registers as a number. -/
theorem reg_congr (i : Fin 16) (hi : i.val ≤ 9) : reg r i = reg r' i := by rw [reg, reg, h i hi]

/-- The properties are a function of registers 0 to 9: each used field comes from the numbers of some of them, each
unused one from all ten (R180). -/
theorem propsOf_congr : propsOf r = propsOf r' := by
  have hunused := propRegs_congr h
  have hreg := reg_congr h
  have hmode : modeOf r = modeOf r' := by simp [modeOf, hreg]
  have hscroll : scrollOf r = scrollOf r' := by simp [scrollOf, hreg]
  rw [propsOf, propsOf, hmode, hscroll]
  -- The class decides which fields are used.
  cases classOf (modeOf r') <;>
    simp [layerEnabled, hscaleField, vscaleField, unlessBitmap, tileWidth, tileHeight, strideOf, palOffsetOf,
      hreg, hunused]

end

/-- Settles O52: the answer is the properties of the layer's registers, which registers 0 to 9 determine. -/
theorem propsReadRegistersZeroToNineOnly : Obligations.PropsReadRegistersZeroToNineOnly := by
  intro s s' L h
  exact ⟨propsOf (s.lr.get L), exec_props L s, by rw [exec_props, propsOf_congr h]⟩

end Sys2Proof.Machine
end

section
/-! PROOFS. The compositor (spec/45_compositor.md): the gate and mode dispatch of `Render`, the layer merge, the palette
lookup, and the frame pass as a function of the state it starts from. -/

namespace Sys2Proof.Machine

/-! ## Render -/

theorem exec_render (L : LayerId) (x : ScreenX) (y : ScreenY) (s : State) :
    exec (.render L x y) s = .next { s with answer := .index (renderPixel s L x.val y.val) } := rfl

/-- The pixel function of a mode as an operation (30_encoding.md R96). -/
def modeInstr : Mode → LayerId → ScreenX → ScreenY → Instr
  | .text16 => .renderText16
  | .text256 => .renderText256
  | .tile2 => .renderTile2
  | .tile4 => .renderTile4
  | .tile8 => .renderTile8
  | .bitmap2 => .renderBitmap2
  | .bitmap4 => .renderBitmap4
  | .bitmap8 => .renderBitmap8

/-- The gate closed (45_compositor.md R246). -/
theorem exec_render_disabled {s : State} {L : LayerId} (h : ¬ layerEnabled (s.lr.get L) = true) (x : ScreenX)
    (y : ScreenY) : exec (.render L x y) s = .next { s with answer := .index 0 } := by
  rw [exec_render, renderPixel, renderLayer, if_pos (Bool.eq_false_of_not_eq_true h)]

/-- The gate open: `Render` does what the operation of the layer's mode does (R245). -/
theorem exec_render_enabled {s : State} {L : LayerId} (h : layerEnabled (s.lr.get L) = true) (x : ScreenX)
    (y : ScreenY) : exec (.render L x y) s = exec (modeInstr (modeOf (s.lr.get L)) L x y) s := by
  rw [exec_render, renderPixel, renderLayer, if_neg (by rw [h]; decide)]
  cases modeOf (s.lr.get L) <;> rfl

/-- Settles O33: bit 0 of register 0 is the gate, and bits 7:5 name the mode whose operation runs. -/
theorem renderGatesAndDispatches : Obligations.RenderGatesAndDispatches := by
  intro s L x y r0
  refine ⟨fun hoff => ?disabled, fun hon => ?enabled⟩
  case disabled =>
    refine exec_render_disabled (fun hen => ?_) x y
    have hbit : r0 % 2 = 1 := (layerEnabled_eq _).mp hen
    omega
  case enabled =>
    have hmode (k : Nat) (hk : r0 / 32 = k) :
        exec (.render L x y) s = exec (modeInstr (modeOfField k) L x y) s := by
      rw [exec_render_enabled ((layerEnabled_eq _).mpr hon), modeOf_eq, ← hk]; rfl
    exact ⟨hmode 0, hmode 1, hmode 2, hmode 3, hmode 4, hmode 5, hmode 6, hmode 7⟩

/-! ## Composite -/

theorem exec_composite (x : ScreenX) (y : ScreenY) (s : State) :
    exec (.composite x y) s = .next { s with answer := .index (compositePixel s x.val y.val) } := rfl

/-- The layer merge: layer 0 shows where layer 1 is transparent (45_compositor.md R248). -/
theorem compositePixel_eq (s : State) (x y : Nat) :
    compositePixel s x y = if renderPixel s 1 x y = 0 then renderPixel s 0 x y else renderPixel s 1 x y := by
  rw [compositePixel, ite_not]

/-- Settles O36: the two indices merged are those `Render` answers for the layers. -/
theorem compositePutsLayerOneInFront : Obligations.CompositePutsLayerOneInFront :=
  fun s x y => ⟨_, _, exec_render 1 x y s, exec_render 0 x y s, by rw [exec_composite, compositePixel_eq]⟩

/-! ## PaletteLookup -/

theorem exec_paletteLookup (i : ColorIndex) (s : State) :
    exec (.paletteLookup i) s = .next { s with answer := .colour (lookupColour s i.val) } := rfl

/-- The low nibble of a byte, shifted left by four (45_compositor.md R250). -/
theorem low_nibble_shifted_toNat (b : Byte) : (b.extractLsb' 0 4 ++ 0#4 : Byte).toNat = b.toNat % 16 * 16 := by
  rw [append_toNat, BitVec.extractLsb'_toNat, Nat.shiftRight_zero]; rfl

/-- The high nibble of a byte, shifted left by four (R250). -/
theorem high_nibble_shifted_toNat (b : Byte) : (b.extractLsb' 4 4 ++ 0#4 : Byte).toNat = b.toNat / 16 * 16 := by
  have := b.isLt
  rw [append_toNat, BitVec.extractLsb'_toNat, Nat.shiftRight_eq_div_pow, BitVec.toNat_ofNat]
  omega

/-- A palette byte is what `VREAD` gives at its address (40_address_space.md R140). -/
theorem memRead_pal_eq_vread (s : State) {o : Nat} (h : o ≤ 0x1FF) : memRead s.pal o = vread s (0x40200 + o) := by
  rw [vread_pal s (by omega) (by omega), Nat.add_sub_cancel_left]

/-- Settles O37: the three nibbles as numbers, and the entry's two bytes as `VREAD` reads them. -/
theorem paletteLookupShiftsTheNibbles : Obligations.PaletteLookupShiftsTheNibbles := by
  intro s i
  have hi : i.val < 256 := i.isLt
  exact ⟨lookupColour s i.val, exec_paletteLookup i s, low_nibble_shifted_toNat _, high_nibble_shifted_toNat _,
    low_nibble_shifted_toNat _, memRead_pal_eq_vread s (by omega), memRead_pal_eq_vread s (by omega)⟩

/-! ## The frame pass -/

theorem exec_frame (s : State) : exec .frame s = .next { s with fb := frameCells s, answer := .none } := execFrame_eq s

/-- A frame pass neither reads the old buffer nor the last answer (45_compositor.md R257, R258). -/
theorem exec_frame_ignores_fb_answer (s : State) (m : Memory) (a : Answer) :
    exec .frame { s with fb := m, answer := a } = exec .frame s := by
  have hcells : frameCells { s with fb := m, answer := a } = frameCells s := frameCells_congr rfl rfl rfl rfl rfl
  rw [exec_frame, exec_frame, hcells]

/-- Settles O41: a pass ignores the buffer and the answer it finds, so also those an earlier pass left. -/
theorem framePassHasNoHistory : Obligations.FramePassHasNoHistory :=
  fun s m => ⟨exec_frame_ignores_fb_answer s m s.answer, { s with fb := frameCells s, answer := .none }, exec_frame s,
    (exec_frame_ignores_fb_answer s (frameCells s) .none).trans (exec_frame s)⟩

end Sys2Proof.Machine
end

section
/-! PROOFS. No operation raises an exception (spec/60_exceptions.md). -/

namespace Sys2Proof.Machine

/-- Settles O47, by cases on the operation: the meaning of each of the 46 is one next state, with no condition on its operands
or on the state under which it would answer anything else. -/
theorem everyOperationCompletes : Obligations.EveryOperationCompletes := by
  intro i s
  cases i <;> exact ⟨_, rfl⟩

end Sys2Proof.Machine
end

section
/-! PROOFS. Requests (spec/30_encoding.md): decoding undoes encoding, what the patterns select, and which requests a step
performs or refuses. -/

namespace Sys2Proof.Machine

/-! ## The rows of the video address decode, by range (30_encoding.md R95) -/

section
variable {a : VAddr} (acc : Access)

theorem decodeVaddr_ram (h : a.toNat ≤ 0x1FFFF) : decodeVaddr a acc = .vaddrRam (.ofNat 17 a.toNat) acc := by
  rw [decodeVaddr_eq, if_pos (by omega)]

theorem decodeVaddr_rom (h : 0x20000 ≤ a.toNat) (h' : a.toNat ≤ 0x20FFF) :
    decodeVaddr a acc = .vaddrRom (.ofNat 12 a.toNat) acc := by
  rw [decodeVaddr_eq, if_neg (by omega), if_pos (by omega)]

theorem decodeVaddr_unmapped1 (h : 0x21000 ≤ a.toNat) (h' : a.toNat ≤ 0x3FFFF) :
    decodeVaddr a acc = .vaddrUnmapped1 acc := by
  rw [decodeVaddr_eq, if_neg (by omega), if_neg (by omega), if_pos (by omega)]

theorem decodeVaddr_lreg0 (h : 0x40000 ≤ a.toNat) (h' : a.toNat ≤ 0x4000F) :
    decodeVaddr a acc = .vaddrLreg0 (.ofNat 4 a.toNat) acc := by
  rw [decodeVaddr_eq, if_neg (by omega), if_neg (by omega), if_neg (by omega), if_pos (by omega)]

theorem decodeVaddr_lreg1 (h : 0x40010 ≤ a.toNat) (h' : a.toNat ≤ 0x4001F) :
    decodeVaddr a acc = .vaddrLreg1 (.ofNat 4 a.toNat) acc := by
  rw [decodeVaddr_eq, if_neg (by omega), if_neg (by omega), if_neg (by omega), if_neg (by omega), if_pos (by omega)]

theorem decodeVaddr_unmapped2 (h : 0x40020 ≤ a.toNat) (h' : a.toNat ≤ 0x401FF) :
    decodeVaddr a acc = .vaddrUnmapped2 acc := by
  rw [decodeVaddr_eq, if_neg (by omega), if_neg (by omega), if_neg (by omega), if_neg (by omega), if_neg (by omega),
    if_pos (by omega)]

theorem decodeVaddr_pal (h : 0x40200 ≤ a.toNat) (h' : a.toNat ≤ 0x403FF) :
    decodeVaddr a acc = .vaddrPal (.ofNat 9 a.toNat) acc := by
  rw [decodeVaddr_eq, if_neg (by omega), if_neg (by omega), if_neg (by omega), if_neg (by omega), if_neg (by omega),
    if_neg (by omega), if_pos (by omega)]

theorem decodeVaddr_unmapped3 (h : 0x40400 ≤ a.toNat) : decodeVaddr a acc = .vaddrUnmapped3 acc := by
  rw [decodeVaddr_eq, if_neg (by omega), if_neg (by omega), if_neg (by omega), if_neg (by omega), if_neg (by omega),
    if_neg (by omega), if_neg (by omega)]

end

/-- Settles O4: a row's offset keeps the low bits of the address, which in the row's range count from its first address. -/
theorem addressPatternsSelectThePrintedRanges : Obligations.AddressPatternsSelectThePrintedRanges := by
  intro a acc
  refine ⟨fun h => ⟨_, decodeVaddr_ram acc h, ?_⟩, fun h h' => ⟨_, decodeVaddr_rom acc h h', ?_⟩,
    decodeVaddr_unmapped1 acc, fun h h' => ⟨_, decodeVaddr_lreg0 acc h h', ?_⟩,
    fun h h' => ⟨_, decodeVaddr_lreg1 acc h h', ?_⟩, decodeVaddr_unmapped2 acc,
    fun h h' => ⟨_, decodeVaddr_pal acc h h', ?_⟩, decodeVaddr_unmapped3 acc⟩
  all_goals rw [BitVec.toNat_ofNat]; omega

/-! ## Decoding undoes encoding -/

/-- The low bits of an appended pattern are its second part. -/
theorem ofNat_append_toNat {n m : Nat} (p : BitVec n) (o : BitVec m) : BitVec.ofNat m (p ++ o).toNat = o := by
  apply BitVec.eq_of_toNat_eq
  rw [BitVec.toNat_ofNat, append_toNat, Nat.mul_add_mod', Nat.mod_eq_of_lt o.isLt]

/-- The two forms of `PW 5` differ in bit 7 of the data byte (30_encoding.md R90). -/
theorem decodePort_pw5 (b : BitVec 1) :
    decodePort (0b1101#4 ++ (0b0000000#7 ++ b)) = .pw5Select b ∧
    decodePort (0b1101#4 ++ (0b1000000#7 ++ b)) = .pw5Reset b := by
  revert b; decide

/-- Settles O2, by the operation's group: the bytes come apart into the pattern again, and the pattern selects the row; a
named operation is its own request. -/
theorem decodeOfEncodeIsTheOperation : Obligations.DecodeOfEncodeIsTheOperation := by
  intro i
  cases i
  case pr0 | pw0 | pr1 | pw1 | pr2 | pw2 | pr3 | pw3 | pr4 | pw4 | pr5 | pr6 | pw6 | pr7 | pw7 =>
    rw [encode, decode_encodePort]
    simp [decodePort, port_pattern_head, port_pattern_data, nibbles_high, nibbles_low]
  case pw5Select b => exact (decode_encodePort _ _).trans (congrArg _ (decodePort_pw5 b).1)
  case pw5Reset b => exact (decode_encodePort _ _).trans (congrArg _ (decodePort_pw5 b).2)
  case vaddrRam o acc =>
    have hval : (0b000#3 ++ o).toNat = 0 * 2 ^ 17 + o.toNat := append_toNat _ _
    rw [encode, decode_encodeVaddr, decodeVaddr_ram acc (by omega), ofNat_append_toNat]
  case vaddrRom o acc =>
    have hval : (0b00100000#8 ++ o).toNat = 0x20 * 2 ^ 12 + o.toNat := append_toNat _ _
    rw [encode, decode_encodeVaddr, decodeVaddr_rom acc (by omega) (by omega), ofNat_append_toNat]
  case vaddrLreg0 r acc =>
    have hval : (0b0100000000000000#16 ++ r).toNat = 0x4000 * 2 ^ 4 + r.toNat := append_toNat _ _
    rw [encode, decode_encodeVaddr, decodeVaddr_lreg0 acc (by omega) (by omega), ofNat_append_toNat]
  case vaddrLreg1 r acc =>
    have hval : (0b0100000000000001#16 ++ r).toNat = 0x4001 * 2 ^ 4 + r.toNat := append_toNat _ _
    rw [encode, decode_encodeVaddr, decodeVaddr_lreg1 acc (by omega) (by omega), ofNat_append_toNat]
  case vaddrPal o acc =>
    have hval : (0b01000000001#11 ++ o).toNat = 0x201 * 2 ^ 9 + o.toNat := append_toNat _ _
    rw [encode, decode_encodeVaddr, decodeVaddr_pal acc (by omega) (by omega), ofNat_append_toNat]
  case vaddrUnmapped1 | vaddrUnmapped2 | vaddrUnmapped3 => exact decode_encodeVaddr _ _
  case renderText16 | renderText256 | renderTile2 | renderTile4 | renderTile8 | renderBitmap2 | renderBitmap4 |
      renderBitmap8 => exact decode_encodeMode _ _ _ _
  all_goals rfl

/-! ## The port patterns -/

/-- Settles O1: each word's bytes, computed. -/
theorem specWordsDecodeToTheirOperations : Obligations.SpecWordsDecodeToTheirOperations := by
  unfold Obligations.SpecWordsDecodeToTheirOperations
  decide

/-- The patterns of reads and of writes to ports 6 and 7 are none of those that take a data byte (30_encoding.md R90). -/
theorem ne_data_patterns : ∀ dp : BitVec 4, dp.toNat ≤ 7 ∨ 14 ≤ dp.toNat →
    dp ≠ 0b1000#4 ∧ dp ≠ 0b1001#4 ∧ dp ≠ 0b1010#4 ∧ dp ≠ 0b1011#4 ∧ dp ≠ 0b1100#4 ∧ dp ≠ 0b1101#4 := by
  decide

/-- A one-bit field is its bit. -/
theorem extractLsb'_one_congr {n k : Nat} {v w : BitVec n} (h : v.getLsbD k = w.getLsbD k) :
    v.extractLsb' k 1 = w.extractLsb' k 1 := by
  apply BitVec.eq_of_getLsbD_eq
  intro i hi
  obtain rfl : i = 0 := by omega
  simpa using h

/-- Settles O3: only the rows of writes to ports 0 to 5 take bits of the data byte, and `PW 5` takes bits 7 and 0. -/
theorem everyPortPatternIsATransaction : Obligations.EveryPortPatternIsATransaction := by
  refine ⟨fun dp v => ⟨_, decode_encodePort dp v, decodePort_format _⟩, fun dp v h => ?dontCare, fun v w h7 h0 => ?pw5⟩
  case dontCare =>
    obtain ⟨h0, h1, h2, h3, h4, h5⟩ := ne_data_patterns dp h
    rw [decode_encodePort, decode_encodePort]
    simp only [decodePort, port_pattern_head, if_neg h0, if_neg h1, if_neg h2, if_neg h3, if_neg h4, if_neg h5]
  case pw5 =>
    rw [decode_encodePort, decode_encodePort]
    simp [decodePort, port_pattern_head, port_pattern_data, extractLsb'_one_congr h7, extractLsb'_one_congr h0]

/-! ## The next request (00_scope.md R9, R12) -/

theorem takeRequest_alone {s : State} {r : Request} (h : s.alone = some r) :
    takeRequest s = some (.alone, r, { s with alone := none }) :=
  (takeRequest_eq_some_iff _ _ _ _).mpr (.inl ⟨rfl, h, rfl⟩)

theorem takeRequest_pending {s : State} {r : Request} {rest : List Request} (h : s.alone = none)
    (hp : s.pending = r :: rest) : takeRequest s = some (.outside, r, { s with pending := rest }) :=
  (takeRequest_eq_some_iff _ _ _ _).mpr (.inr ⟨rfl, h, rest, hp, rfl⟩)

theorem takeRequest_none {s : State} (h : s.alone = none) (hp : s.pending = []) : takeRequest s = none := by
  simp only [takeRequest, h, hp]

/-- A request that decodes to an operation which its agent may start is accepted. -/
theorem acceptRequest_eq_ok {on : Bool} {src : Source} {r : Request} {i : Instr} (hd : decode r = .ok i)
    (hsrc : isHostMove i = decide (src = .outside)) (hon : on = !isPowerOn i) (hw : i.wellFormed = true) :
    acceptRequest on src r = .ok i :=
  (acceptRequest_eq_ok_iff _ _ _ _).mpr ⟨hd, (objection_eq_none_iff _ _ _).mpr ⟨hsrc, hon, hw⟩⟩

/-- A request that decodes to an operation to which something is objected is refused with it. -/
theorem acceptRequest_eq_error {on : Bool} {src : Source} {r : Request} {i : Instr} {e : Refusal} (hd : decode r = .ok i)
    (ho : objection on src i = some e) : acceptRequest on src r = .error e := by
  simp only [acceptRequest, hd, ho]

/-- A request that decodes to no operation is refused with the reason. -/
theorem acceptRequest_of_decode_error {on : Bool} {src : Source} {r : Request} {e : DecodeError}
    (hd : decode r = .error e) : acceptRequest on src r = .error (.notAnOperation e) := by
  simp only [acceptRequest, hd]

/-- Settles O5: the request is the next one of its source, and it is accepted. -/
theorem stepRunsTheDecodedOperation : Obligations.StepRunsTheDecodedOperation := by
  intro s r i hd hw hon
  refine ⟨fun hhost halone rest hp => ?_, fun hblock halone => ?_⟩
  · exact step_of_accepted (takeRequest_pending halone hp) (acceptRequest_eq_ok hd hhost hon hw)
  · exact step_of_accepted (takeRequest_alone halone) (acceptRequest_eq_ok hd hblock hon hw)

/-- Settles O6: the encoding of an operation decodes to it, so the step runs it. -/
theorem stepRunsAnyEncodedOperation : Obligations.StepRunsAnyEncodedOperation := by
  intro s i rest hw hon
  have hd := decodeOfEncodeIsTheOperation i
  refine ⟨fun hhost => ?_, fun hblock => ?_⟩
  · exact (stepRunsTheDecodedOperation { s with alone := none, pending := encode i :: rest } _ i hd hw hon).1 hhost rfl
      rest rfl
  · exact (stepRunsTheDecodedOperation { s with alone := some (encode i) } _ i hd hw hon).2 hblock rfl

/-- Settles O7: there is no request to take. -/
theorem stepWithNothingRequestedHoldsTheState : Obligations.StepWithNothingRequestedHoldsTheState := by
  intro s hp halone
  rw [step, takeRequest_none halone hp]

/-- A request looked at by itself that decodes to no operation is refused by name. -/
theorem step_alone_of_decode_error {s : State} {r : Request} {e : DecodeError} (h : s.alone = some r)
    (hd : decode r = .error e) : step s = .refused (.notAnOperation e) :=
  step_of_refused (takeRequest_alone h) (acceptRequest_of_decode_error hd)

/-- Every pixel function is started by the block itself (00_scope.md R7), is not `POWERON` and carries no parameters. -/
theorem decodeMode_agent (m : BitVec 3) (L : LayerId) (x : ScreenX) (y : ScreenY) :
    isHostMove (decodeMode m L x y) = false ∧ isPowerOn (decodeMode m L x y) = false ∧
    (decodeMode m L x y).wellFormed = true := by
  unfold decodeMode
  split_ifs <;> exact ⟨rfl, rfl, rfl⟩

/-- Settles O8: the bytes are checked layer first, then column, then row; a request that passes is a pixel function. -/
theorem operandsOutOfRangeAreRefused : Obligations.OperandsOutOfRangeAreRefused := by
  intro s m l x0 x1 y0 y1 halone hon
  have hm : (0#5 ++ m : BitVec 8).extractLsb' 3 5 = 0#5 := mode_byte_high 0#5 m
  refine ⟨fun hl => ?layer, fun hl hx => ?column, fun hl hx hy => ?row, fun hl hx hy => ?inRange⟩
  case layer =>
    refine step_alone_of_decode_error halone ?_
    rw [decode, decodeModeBytes, if_pos hm, dif_neg (by omega)]
  case column =>
    refine step_alone_of_decode_error halone ?_
    rw [decode, decodeModeBytes, if_pos hm, dif_pos hl, dif_neg (by omega)]
  case row =>
    refine step_alone_of_decode_error halone ?_
    rw [decode, decodeModeBytes, if_pos hm, dif_pos hl, dif_pos hx, dif_neg (by omega)]
  case inRange =>
    have hd : decode (.coded .mode [0#5 ++ m, l, x0, x1, y0, y1]) = .ok (decodeMode m ⟨_, hl⟩ ⟨_, hx⟩ ⟨_, hy⟩) := by
      rw [decode, decodeModeBytes, if_pos hm, dif_pos hl, dif_pos hx, dif_pos hy, mode_byte_low]
    obtain ⟨hblock, hnot, hw⟩ := decodeMode_agent m ⟨_, hl⟩ ⟨_, hx⟩ ⟨_, hy⟩
    rw [(stepRunsTheDecodedOperation s _ _ hd hw (by rw [hon, hnot]; rfl)).2 hblock halone]
    exact everyOperationCompletes _ _

theorem wellFormed_poweron_iff (p : Config.OpenParams) : (Instr.poweron p).wellFormed = true ↔ OpenParamsOk p :=
  decide_eq_true_iff

/-- Settles O9: what the platform's request meets, by the phase and the parameters. -/
theorem powerOnNeedsTheParameterConstraints : Obligations.PowerOnNeedsTheParameterConstraints := by
  intro s rest p halone hp
  have hd : decode (.named (.poweron p)) = .ok (.poweron p) := rfl
  refine ⟨fun hon hok => ?performed, fun hon hbad => ?parameters, fun hon => ?second⟩
  case performed =>
    exact (stepRunsTheDecodedOperation s _ _ hd ((wellFormed_poweron_iff p).mpr hok) hon).1 rfl halone rest hp
  case parameters =>
    refine step_of_refused (takeRequest_pending halone hp) (acceptRequest_eq_error hd ?_)
    have hw : (Instr.poweron p).wellFormed = false := by
      rw [← Bool.not_eq_true, wellFormed_poweron_iff]; exact hbad
    simp [objection, isHostMove, isPowerOn, agentOf, hon, hw]
  case second =>
    refine step_of_refused (takeRequest_pending halone hp) (acceptRequest_eq_error hd ?_)
    simp [objection, isHostMove, isPowerOn, agentOf, hon]

end Sys2Proof.Machine
end

section
/-! PROOFS. Read-back, the selector (spec/41_io_ports.md) and the video address decoder as rows and as ranges
(spec/40_address_space.md). -/

namespace Sys2Proof.Machine

/-! ## The selector -/

theorem exec_pr5 (s : State) : exec .pr5 s = .next { s with answer := .byte (s.sel.setWidth 8) } := rfl
theorem exec_pw5Select (s : State) (b : BitVec 1) :
    exec (.pw5Select b) s = .next { s with sel := b, answer := .none } := rfl
theorem exec_pw5Reset (s : State) (b : BitVec 1) :
    exec (.pw5Reset b) s = .next { controllerReset s with sel := b, answer := .none } := rfl

/-- Settles O18: widening keeps the selector's value. -/
theorem portFiveReadsTheSelector : Obligations.PortFiveReadsTheSelector :=
  fun s => ⟨_, BitVec.toNat_setWidth_of_le (by omega), exec_pr5 s⟩

/-- Settles O19: the reset sets layer registers, palette, pointers and steps, then the selector is set. -/
theorem portFiveSelectsAndResets : Obligations.PortFiveSelectsAndResets :=
  fun s b => ⟨exec_pw5Select s b, exec_pw5Reset s b⟩

/-- The selector as a byte, its upper seven bits zero (D22, log 30). -/
theorem sel_setWidth_eq (b : BitVec 1) : b.setWidth 8 = 0#7 ++ b := by
  revert b; decide

/-! ## Read-back (R177) -/

theorem window0_setWindow0 (s : State) (n a : BitVec 4) : window0 (setWindow0 s n a) = n ++ a := by
  have hsel : selected (setWindow0 s n a) = selected s := rfl
  rw [window0, hsel, setWindow0_eq, vector_get_set, vector_get_set, if_pos rfl, if_pos rfl,
    BitVec.extractLsb'_append_eq_left]

theorem window1_setWindow1 (s : State) (v : Byte) : window1 (setWindow1 s v) = v := by
  have hsel : selected (setWindow1 s v) = selected s := rfl
  have := v.isLt
  apply BitVec.eq_of_toNat_eq
  rw [window1_toNat, hsel, setWindow1_eq, vector_get_set, if_pos rfl, replace_middle_toNat]
  omega

theorem window2_setWindow2 (s : State) (v : Byte) : window2 (setWindow2 s v) = v := by
  have hsel : selected (setWindow2 s v) = selected s := rfl
  have := v.isLt
  apply BitVec.eq_of_toNat_eq
  rw [window2_toNat, hsel, setWindow2_eq, vector_get_set, if_pos rfl, replace_low_toNat]
  omega

/-- An operation that answers a byte, when the byte is known in another form. -/
theorem exec_answer_congr {i : Instr} {s : State} {b c : Byte} (hi : exec i s = .next { s with answer := .byte b })
    (h : b = c) : exec i s = .next { s with answer := .byte c } := h ▸ hi

/-- Settles O12: each port shows what its write put into the selected pointer, or into the selector. -/
theorem portWritesReadBack : Obligations.PortWritesReadBack :=
  fun s => ⟨fun n a => ⟨_, exec_pw0 s n a, exec_answer_congr (exec_pr0 _) (window0_setWindow0 s n a)⟩,
    fun v => ⟨_, exec_pw1 s v, exec_answer_congr (exec_pr1 _) (window1_setWindow1 s v)⟩,
    fun v => ⟨_, exec_pw2 s v, exec_answer_congr (exec_pr2 _) (window2_setWindow2 s v)⟩,
    fun b => ⟨_, exec_pw5Select s b, exec_answer_congr (exec_pr5 _) (sel_setWidth_eq b)⟩,
    fun b => ⟨_, exec_pw5Reset s b, exec_answer_congr (exec_pr5 _) (sel_setWidth_eq b)⟩⟩

/-! ## The data ports do not look at the selector (R151) -/

/-- An operation that neither reads nor writes the selector. -/
def IgnoresSelector (f : State → State) : Prop :=
  ∀ s b, (f s).sel = s.sel ∧ f (s.setSel b) = (f s).setSel b

theorem ignoresSelector_dataPortRead (k : PtrId) : IgnoresSelector (dataPortRead · k) := by
  refine fun s b => ⟨rfl, ?_⟩
  have hread (a : Nat) : vread (s.setSel b) a = vread s a := vread_congr rfl rfl rfl rfl a
  simp only [dataPortRead_eq, hread]
  rfl

theorem ignoresSelector_dataPortWrite (k : PtrId) (v : Byte) : IgnoresSelector (dataPortWrite · k v) := by
  refine fun s b => ⟨(dataPortWrite_frame s k v).2.2.1, ?_⟩
  have hwrite (a : Nat) : vwrite (s.setSel b) a v = (vwrite s a v).setSel b := by
    rw [vwrite, vwrite]; cases region a <;> rfl
  simp only [dataPortWrite_eq, setSel_ptr, hwrite]
  rfl

/-- The same of an operation whose meaning is such a state function. -/
theorem exec_ignoresSelector {i : Instr} {f : State → State} (hi : ∀ s, exec i s = .next (f s))
    (hf : IgnoresSelector f) {s t : State} (b : BitVec 1) (h : exec i s = .next t) :
    t.sel = s.sel ∧ exec i { s with sel := b } = .next { t with sel := b } := by
  obtain rfl : f s = t := Host.Outcome.next.inj ((hi s).symm.trans h)
  obtain ⟨hsel, hcomm⟩ := hf s b
  exact ⟨hsel, (hi _).trans (congrArg _ hcomm)⟩

/-- Settles O16: each of the four transactions is a data port access of its own pointer. -/
theorem dataPortsIgnoreTheSelector : Obligations.DataPortsIgnoreTheSelector := by
  rintro s t i b (rfl | rfl | ⟨v, rfl⟩ | ⟨v, rfl⟩) h
  · exact exec_ignoresSelector exec_pr3 (ignoresSelector_dataPortRead 0) b h
  · exact exec_ignoresSelector exec_pr4 (ignoresSelector_dataPortRead 1) b h
  · exact exec_ignoresSelector (exec_pw3 · v) (ignoresSelector_dataPortWrite 0 v) b h
  · exact exec_ignoresSelector (exec_pw4 · v) (ignoresSelector_dataPortWrite 1 v) b h

/-! ## Writes through the decoder -/

theorem exec_vwrite (s : State) (a : VAddr) (v : Byte) :
    exec (.vwrite a v) s = .next ((vwrite s a.toNat v).give .none) := rfl

/-- Settles O22: a write to the address's region, byte by byte of the three stores that have writable regions. -/
theorem vwriteStoresTheByteOfTheRegion : Obligations.VwriteStoresTheByteOfTheRegion := by
  intro s a v
  refine ⟨_, exec_vwrite s a v, ?frame, fun o => ?vram, fun L i => ?lr, fun o => ?pal⟩
  case frame => rw [vwrite, regionWrite_eq]; rfl
  case vram =>
    rw [give_vram, vwrite, regionWrite_vram_read]
    exact if_congr (region_eq_ram_iff a.isLt o) rfl rfl
  case lr =>
    rw [give_lr, vwrite, regionWrite_lr_get]
    exact if_congr (region_eq_lreg_iff a.isLt L i) rfl rfl
  case pal =>
    rw [give_pal, vwrite, regionWrite_pal_read]
    exact if_congr (region_eq_pal_iff a.isLt o) rfl rfl

/-- What `VREAD b` answers after `VWRITE a, v` (40_address_space.md R144). -/
theorem exec_vread_after_vwrite (s : State) (a b : VAddr) (v : Byte) :
    exec (.vread b) ((vwrite s a.toNat v).give .none) = .next { (vwrite s a.toNat v).give .none with
      answer := .byte (if b = a ∧ regionStores (region a.toNat) = true then v else vread s b.toNat) } := by
  refine exec_answer_congr (exec_vread _ b) ?_
  rw [vread_give, read_after_write, Nat.mod_eq_of_lt b.isLt, Nat.mod_eq_of_lt a.isLt]
  exact if_congr (and_congr_left' BitVec.toNat_inj) rfl rfl

/-- Settles O23: read after write, where the target stores, where it does not, and at any other address. -/
theorem readAfterWriteAndNoAliasing : Obligations.ReadAfterWriteAndNoAliasing := by
  intro s a v
  refine ⟨_, exec_vwrite s a v, fun h => ?stores, fun h => ?keeps, fun b hb => ?other⟩
  case stores => rw [exec_vread_after_vwrite, if_pos ⟨rfl, (regionStores_region_iff a.isLt).mpr h⟩]
  case keeps =>
    have hs : ¬ regionStores (region a.toNat) = true := by
      rw [regionStores_region_iff a.isLt]; omega
    rw [exec_vread_after_vwrite, if_neg fun h => hs h.2]
  case other => rw [exec_vread_after_vwrite, if_neg fun h => hb h.1]

/-! ## The rows as accesses -/

/-- A write access to a layer register, register by register (R139). -/
theorem accessRegion_lreg_get (s : State) (v : Byte) (M L : LayerId) (r : BitVec 4) (i : Fin 16) :
    ((accessRegion s (.lreg M r.toFin) (.write v)).lr.get L).get i =
      if L = M ∧ i.val = r.toNat then v else (s.lr.get L).get i :=
  (setLayerReg_get s M L r.toFin i v).trans (if_congr (and_congr_right' Fin.ext_iff) rfl rfl)

/-- Settles O24: each row is an access to its target. -/
theorem addressRowsReadAndWriteTheirTargets : Obligations.AddressRowsReadAndWriteTheirTargets := by
  refine fun s v => ⟨fun o => ⟨rfl, _, rfl, rfl, ?ram⟩, fun o => ⟨rfl, rfl⟩, fun r => ⟨rfl, _, rfl, rfl, ?lreg0⟩,
    fun r => ⟨rfl, _, rfl, rfl, ?lreg1⟩, fun o => ⟨rfl, _, rfl, rfl, ?pal⟩, ?unmappedRead, ?unmappedWrite⟩
  case ram => exact fun a => memRead_memWrite s.vram o.toNat a v
  case lreg0 => exact fun L i => accessRegion_lreg_get s v 0 L r i
  case lreg1 => exact fun L i => accessRegion_lreg_get s v 1 L r i
  case pal => exact fun a => memRead_memWrite s.pal o.toNat a v
  all_goals
    intro i hi
    simp only [List.mem_cons, List.not_mem_nil, or_false] at hi
    rcases hi with rfl | rfl | rfl <;> rfl

theorem exec_vaddrRam (s : State) (o : BitVec 17) (acc : Access) :
    exec (.vaddrRam o acc) s = .next (accessRegion s (.ram o.toNat) acc) := rfl
theorem exec_vaddrRom (s : State) (o : BitVec 12) (acc : Access) :
    exec (.vaddrRom o acc) s = .next (accessRegion s (.rom o.toNat) acc) := rfl
theorem exec_vaddrLreg0 (s : State) (r : BitVec 4) (acc : Access) :
    exec (.vaddrLreg0 r acc) s = .next (accessRegion s (.lreg 0 r.toFin) acc) := rfl
theorem exec_vaddrLreg1 (s : State) (r : BitVec 4) (acc : Access) :
    exec (.vaddrLreg1 r acc) s = .next (accessRegion s (.lreg 1 r.toFin) acc) := rfl
theorem exec_vaddrPal (s : State) (o : BitVec 9) (acc : Access) :
    exec (.vaddrPal o acc) s = .next (accessRegion s (.pal o.toNat) acc) := rfl

theorem layer_eq_zero_or_one : ∀ L : LayerId, L = 0 ∨ L = 1 := by decide

/-- The row that an address's pattern selects is an access to the address's region: the pattern decode and the range decode
are one (30_encoding.md R95; 40_address_space.md R130). -/
theorem exec_decodeVaddr (s : State) (a : VAddr) (acc : Access) :
    exec (decodeVaddr a acc) s = .next (accessRegion s (region a.toNat) acc) := by
  rcases region_cases a.toNat a.isLt with
    ⟨h, hr⟩ | ⟨h, h', hr⟩ | ⟨h, h', hr⟩ | ⟨L, i, h, hr⟩ | ⟨h, h', hr⟩ | ⟨h, h', hr⟩ | ⟨h, hr⟩
  all_goals rw [hr]
  · have ho : a.toNat % 2 ^ 17 = a.toNat := by omega
    rw [decodeVaddr_ram acc h, exec_vaddrRam, BitVec.toNat_ofNat, ho]
  · have ho : a.toNat % 2 ^ 12 = a.toNat - 0x20000 := by omega
    rw [decodeVaddr_rom acc h h', exec_vaddrRom, BitVec.toNat_ofNat, ho]
  · rw [decodeVaddr_unmapped1 acc h h']; rfl
  · have hi : (BitVec.ofNat 4 a.toNat).toFin = i := Fin.ext (by rw [BitVec.val_toFin, BitVec.toNat_ofNat]; omega)
    obtain rfl | rfl := layer_eq_zero_or_one L
    · rw [decodeVaddr_lreg0 acc (by omega) (by omega), exec_vaddrLreg0, hi]
    · rw [decodeVaddr_lreg1 acc (by omega) (by omega), exec_vaddrLreg1, hi]
  · rw [decodeVaddr_unmapped2 acc h h']; rfl
  · have ho : a.toNat % 2 ^ 9 = a.toNat - 0x40200 := by omega
    rw [decodeVaddr_pal acc h h', exec_vaddrPal, BitVec.toNat_ofNat, ho]
  · rw [decodeVaddr_unmapped3 acc h]; rfl

/-- Settles O25: both decodes are the access to the address's region. -/
theorem patternDecodeEqualsRangeDecode : Obligations.PatternDecodeEqualsRangeDecode :=
  fun s a => ⟨exec_decodeVaddr s a .read, fun v => exec_decodeVaddr s a (.write v)⟩

end Sys2Proof.Machine
end

section
/-! PROOFS. The layer properties (spec/42_layer_config.md): what the register bytes say, and the ranges of everything
derived. -/

namespace Sys2Proof.Machine

/-! ## Mode, class and depth by the mode field -/

section
variable (r : LayerRegs)

theorem modeField_lt : reg r 0 / 32 < 8 := by
  have := reg_lt r 0
  omega

theorem modeOf_eq_getD : modeOf r =
    [Mode.text16, .text256, .tile2, .tile4, .tile8, .bitmap2, .bitmap4, .bitmap8].getD (reg r 0 / 32) .bitmap8 := by
  have key : ∀ k < 8, modeOfField k =
      [Mode.text16, .text256, .tile2, .tile4, .tile8, .bitmap2, .bitmap4, .bitmap8].getD k .bitmap8 := by decide
  rw [modeOf_eq]
  exact key _ (modeField_lt r)

theorem bppOf_modeOf : bppOf (modeOf r) = [1, 1, 2, 4, 8, 2, 4, 8].getD (reg r 0 / 32) 0 := by
  have key : ∀ k < 8, bppOf (modeOfField k) = [1, 1, 2, 4, 8, 2, 4, 8].getD k 0 := by decide
  rw [modeOf_eq]
  exact key _ (modeField_lt r)

theorem class_text_iff : classOf (modeOf r) = .text ↔ reg r 0 / 32 ≤ 1 := by
  have key : ∀ k < 8, classOf (modeOfField k) = .text ↔ k ≤ 1 := by decide
  rw [modeOf_eq]
  exact key _ (modeField_lt r)

theorem class_tile_iff : classOf (modeOf r) = .tile ↔ 2 ≤ reg r 0 / 32 ∧ reg r 0 / 32 ≤ 4 := by
  have key : ∀ k < 8, classOf (modeOfField k) = .tile ↔ 2 ≤ k ∧ k ≤ 4 := by decide
  rw [modeOf_eq]
  exact key _ (modeField_lt r)

theorem class_bitmap_iff : classOf (modeOf r) = .bitmap ↔ 5 ≤ reg r 0 / 32 := by
  have key : ∀ k < 8, classOf (modeOfField k) = .bitmap ↔ 5 ≤ k := by decide
  rw [modeOf_eq]
  exact key _ (modeField_lt r)

/-- The width of a tile is a whole number of bytes at 1 bpp (42_layer_config.md R188). -/
theorem eight_dvd_tilew : 8 ∣ (propsOf r).tilew := by
  cases hc : classOf (modeOf r)
  case text => rw [(propsOf_text r hc).1]
  case tile => rw [(propsOf_tile r hc).1]; exact dvd_mul_right _ _
  case bitmap => rw [(propsOf_bitmap r hc).1]; decide

/-- The size of a tile in bytes is exact (R192). -/
theorem tileSize_mul_eight : (propsOf r).tileSize * 8 = (propsOf r).tilew * (propsOf r).bpp * (propsOf r).tileh :=
  Nat.div_mul_cancel (((eight_dvd_tilew r).mul_right _).mul_right _)

end

/-- Settles O26: the answer is the properties of the layer's registers, and each field is read off them. -/
theorem propsFollowTheRegisters : Obligations.PropsFollowTheRegisters := by
  intro s L R
  obtain ⟨hhscale, hvscale, htileBase, -⟩ := propsOf_common (s.lr.get L)
  refine ⟨propsOf (s.lr.get L), exec_props L s, layerEnabled_eq _, modeOf_eq_getD _, hhscale, hvscale, class_text_iff _,
    class_tile_iff _, class_bitmap_iff _, bppOf_modeOf _, htileBase, propsOf_map _, fun h => ?text, fun h => ?tile,
    fun h => ?bitmap, tileSize_mul_eight _⟩
  case text =>
    obtain ⟨htw, hth, hpal, -⟩ := propsOf_text _ h
    exact ⟨htw, hth, hpal⟩
  case tile =>
    obtain ⟨htw, hth, -⟩ := propsOf_tile _ h
    exact ⟨htw, hth⟩
  case bitmap =>
    obtain ⟨htw, hth, hhscroll, hvscroll, hstride, hpal, -⟩ := propsOf_bitmap _ h
    exact ⟨htw, hth, hhscroll, hvscroll, hstride, hpal⟩

/-! ## Ranges (42_layer_config.md R193) -/

/-- A power of two with an exponent below `n` that is itself at least 1. -/
theorem two_pow_mod_bounds (k n : Nat) (hn : 0 < n) : 1 ≤ 2 ^ (k % n) ∧ 2 ^ (k % n) ≤ 2 ^ (n - 1) :=
  ⟨Nat.one_le_two_pow, Nat.pow_le_pow_right (by decide) (Nat.le_sub_one_of_lt (Nat.mod_lt _ hn))⟩

section
variable (r : LayerRegs)

theorem scale_bounds :
    (1 ≤ (propsOf r).hscale ∧ (propsOf r).hscale ≤ 4) ∧ (1 ≤ (propsOf r).vscale ∧ (propsOf r).vscale ≤ 4) := by
  obtain ⟨hhscale, hvscale, -⟩ := propsOf_common r
  omega

theorem tileBase_bounds : (propsOf r).tileBase ≤ 0x3FFFC ∧ (propsOf r).tileBase % 4 = 0 := by
  obtain ⟨-, -, htileBase, -⟩ := propsOf_common r
  have := reg_lt r 4
  have := reg_lt r 5
  rw [htileBase]
  omega

theorem map_bounds (h : classOf (modeOf r) ≠ .bitmap) :
    (32 ≤ (propsOf r).mapw ∧ (propsOf r).mapw ≤ 256) ∧ (32 ≤ (propsOf r).maph ∧ (propsOf r).maph ≤ 256) ∧
    (propsOf r).mapBase ≤ 0x3FFFC ∧ (propsOf r).mapBase % 4 = 0 ∧ (propsOf r).hscroll ≤ 4095 ∧
    (propsOf r).vscroll ≤ 4095 := by
  obtain ⟨hmapw, hmaph, hmapBase, hhscroll, hvscroll⟩ := propsOf_map r h
  have := two_pow_mod_bounds (reg r 1) 4 (by decide)
  have := two_pow_mod_bounds (reg r 1 / 4) 4 (by decide)
  have := reg_lt r 2
  have := reg_lt r 3
  have := reg_lt r 6
  have := reg_lt r 8
  rw [hmapw, hmaph, hmapBase, hhscroll, hvscroll]
  omega

theorem scroll_bounds : (propsOf r).hscroll ≤ 4095 ∧ (propsOf r).vscroll ≤ 4095 := by
  by_cases h : classOf (modeOf r) = .bitmap
  · obtain ⟨-, -, hhscroll, hvscroll, -⟩ := propsOf_bitmap r h
    omega
  · obtain ⟨-, -, -, -, hhscroll, hvscroll⟩ := map_bounds r h
    exact ⟨hhscroll, hvscroll⟩

theorem bitmap_bounds (h : classOf (modeOf r) = .bitmap) : (propsOf r).stride ≤ 255 ∧ (propsOf r).palOffset ≤ 15 := by
  obtain ⟨-, -, -, -, hstride, hpal, -⟩ := propsOf_bitmap r h
  have := reg_lt r 6
  omega

theorem tile_bounds (h : classOf (modeOf r) ≠ .bitmap) :
    (8 ≤ (propsOf r).tilew ∧ (propsOf r).tilew ≤ 16) ∧ (8 ≤ (propsOf r).tileh ∧ (propsOf r).tileh ≤ 16) := by
  cases hc : classOf (modeOf r)
  case bitmap => exact absurd hc h
  case text =>
    obtain ⟨htw, hth, -⟩ := propsOf_text r hc
    omega
  case tile =>
    obtain ⟨htw, hth, -⟩ := propsOf_tile r hc
    have := two_pow_mod_bounds (reg r 1 / 16) 2 (by decide)
    have := two_pow_mod_bounds (reg r 1 / 32) 2 (by decide)
    rw [htw, hth]
    omega

theorem bpp_bounds : 1 ≤ (propsOf r).bpp ∧ (propsOf r).bpp ≤ 8 := by
  show 1 ≤ bppOf (modeOf r) ∧ bppOf (modeOf r) ≤ 8
  cases modeOf r <;> decide

/-- A product of two factors is at least the product of their bounds, and at most. -/
theorem mul_bounds {a b l m u v : Nat} (ha : l ≤ a ∧ a ≤ u) (hb : m ≤ b ∧ b ≤ v) : l * m ≤ a * b ∧ a * b ≤ u * v :=
  ⟨Nat.mul_le_mul ha.1 hb.1, Nat.mul_le_mul ha.2 hb.2⟩

theorem tileSize_bounds (h : classOf (modeOf r) ≠ .bitmap) :
    8 ≤ (propsOf r).tileSize ∧ (propsOf r).tileSize ≤ 256 := by
  obtain ⟨hw, hh⟩ := tile_bounds r h
  have := mul_bounds (mul_bounds hw (bpp_bounds r)) hh
  have := tileSize_mul_eight r
  omega

end

/-- Settles O27, from the range of each register byte and of each field cut out of one. -/
theorem propsStayInTheirRanges : Obligations.PropsStayInTheirRanges := by
  intro r
  obtain ⟨hhscale, hvscale⟩ := scale_bounds r
  obtain ⟨hbase, hbase4⟩ := tileBase_bounds r
  obtain ⟨hhscroll, hvscroll⟩ := scroll_bounds r
  refine ⟨hhscale, hvscale, hbase, hbase4, hhscroll, hvscroll, fun h => ?map, bitmap_bounds r⟩
  obtain ⟨hmapw, hmaph, hmapBase, hmapBase4, -⟩ := map_bounds r h
  obtain ⟨hw, hh⟩ := tile_bounds r h
  exact ⟨hmapw, hmaph, hw, hh, mul_bounds hmapw hw, mul_bounds hmaph hh, hmapBase, hmapBase4, tileSize_bounds r h⟩

end Sys2Proof.Machine
end

section
/-! PROOFS. The pixel functions (spec/43_tile_renderer.md, spec/44_bitmap_renderer.md): their rules on the register bytes. -/

namespace Sys2Proof.Machine

/-! ## Cells, extraction and sub-offset as arithmetic -/

theorem cellFg16_eq (byte1 : Nat) : cellFg16 byte1 = byte1 % 16 := by simp [cellFg16, slice]

theorem cellBg16_eq {byte1 : Nat} (h : byte1 < 256) : cellBg16 byte1 = byte1 / 16 := by
  simp only [cellBg16, slice]; omega

theorem cellPalOff_eq {byte1 : Nat} (h : byte1 < 256) : cellPalOff byte1 = byte1 / 16 := by
  simp only [cellPalOff, slice]; omega

theorem cellHflip_iff (byte1 : Nat) : cellHflip byte1 = true ↔ byte1 / 4 % 2 = 1 := by simp [cellHflip, slice]

theorem cellVflip_iff (byte1 : Nat) : cellVflip byte1 = true ↔ byte1 / 8 % 2 = 1 := by simp [cellVflip, slice]

/-- Extraction at 1 bpp as the bit of the data byte (43_tile_renderer.md R214). -/
theorem extract1_eq (b : Byte) {xx : Nat} (h : xx < 8) (fg bg : Nat) :
    extract1 b.toNat xx fg bg = if b.getLsbD (7 - xx) then fg else bg := by
  have hbit : slice b.toNat (7 - xx) (7 - xx) = 1 ↔ b.getLsbD (7 - xx) = true := by
    simp [slice, BitVec.getLsbD, Nat.testBit_eq_decide_div_mod_eq]
  rw [extract1, bitOrder1bpp, Nat.mod_eq_of_lt h]
  exact if_congr hbit rfl rfl

/-- A sub-offset of 0 is no exception of the rule (R218; 90_conflicts.md C2). -/
theorem applyOffset_eq (c0 po : Nat) : applyOffset c0 po = if 1 ≤ c0 ∧ c0 ≤ 15 then c0 + 16 * po else c0 := by
  unfold applyOffset
  split_ifs <;> omega

/-- Settles O32: the three ranges of the pixel value, and the bound. -/
theorem applyOffsetMovesOneToFifteen : Obligations.ApplyOffsetMovesOneToFifteen := by
  intro s c0 po
  refine ⟨applyOffset c0.val po.val, rfl, fun h => ?zero, fun h h' => ?moved, fun h => ?kept,
    applyOffset_le _ _ (by omega) (by omega)⟩
  case zero => rw [applyOffset_eq, if_neg (by omega), h]
  case moved => rw [applyOffset_eq, if_pos ⟨h, h'⟩]
  case kept => rw [applyOffset_eq, if_neg (by omega)]

/-! ## The rules of the modes -/

/-- What the operation of a pixel function answers (R220 to R224; 44_bitmap_renderer.md R238 to R240). -/
theorem answerPixel_eq {f : LayerRegs → (Nat → Byte) → Nat → Nat → Nat} {L : LayerId} {x : ScreenX} {y : ScreenY}
    {s : State} {n : Nat} (h : f (s.lr.get L) (vread s) x.val y.val = n) :
    Host.Outcome.next (answerPixel f L x y s) = (.next { s with answer := .index n } : Outcome) := h ▸ rfl

/-- Settles O29: the text stages with the properties written out on the register bytes, then the bit and its two colours. -/
theorem textModesFollowTheirRules : Obligations.TextModesFollowTheirRules := by
  intro s L x y R mapw maph ex ey ma byte0 byte1 data
  have hpixel (h : R 0 / 32 ≤ 1) :
      textPixel (s.lr.get L) (vread s) x.val y.val = { byte0, byte1, xx := ex % 8, s := data.toNat } := by
    have hc : classOf (modeOf (s.lr.get L)) = .text := (class_text_iff _).mpr h
    obtain ⟨hhscale, hvscale, htileBase, -⟩ := propsOf_common (s.lr.get L)
    obtain ⟨hmapw, hmaph, hmapBase, hhscroll, hvscroll⟩ := propsOf_map (s.lr.get L) (by rw [hc]; decide)
    have hdata : data = vread s (4 * R 4 + 1024 * R 5 + (byte0 * 8 + ey % 8)) :=
      congrArg (vread s) (Nat.add_assoc _ _ _)
    simp only [textPixel, wrapped, scaled, mapCellAddr, hhscale, hvscale, htileBase, hmapw, hmaph, hmapBase, hhscroll,
      hvscroll, hdata]
    rfl
  have hxx : ex % 8 < 8 := Nat.mod_lt _ (by decide)
  have hbyte1 : byte1 < 256 := BitVec.isLt _
  refine ⟨fun h => answerPixel_eq (f := renderText16) ?_, fun h => answerPixel_eq (f := renderText256) ?_⟩
  · simp only [renderText16, hpixel (by omega), extract1_eq _ hxx, cellFg16_eq, cellBg16_eq hbyte1]
  · simp only [renderText256, hpixel (by omega), extract1_eq _ hxx, cellBg256]

/-- Settles O30: the tile stages with the properties written out on the register bytes, then each depth's extraction. -/
theorem tileModesFollowTheirRules : Obligations.TileModesFollowTheirRules := by
  intro s L x y R mapw maph tilew tileh ex ey ma byte0 byte1 idx xx yy data offset
  obtain ⟨hhscale, hvscale, htileBase, -, -, -, -⟩ := propsOf_common (s.lr.get L)
  have hbyte0 : byte0 < 256 := BitVec.isLt _
  have hbyte1 : byte1 < 256 := BitVec.isLt _
  have hclass (h : 2 ≤ R 0 / 32 ∧ R 0 / 32 ≤ 4) : classOf (modeOf (s.lr.get L)) = .tile := (class_tile_iff _).mpr h
  have hpixel (h : 2 ≤ R 0 / 32 ∧ R 0 / 32 ≤ 4) :
      tilePixel (s.lr.get L) (vread s) x.val y.val = { idx, xx, yy, palOff := byte1 / 16 } := by
    obtain ⟨hmapw, hmaph, hmapBase, hhscroll, hvscroll⟩ :=
      propsOf_map (s.lr.get L) (by rw [hclass h]; decide)
    obtain ⟨htilew, htileh, -⟩ := propsOf_tile (s.lr.get L) (hclass h)
    have hxx : xx = flipped (cellHflip byte1) tilew (ex % tilew) := by
      rw [flipped_eq _ _ _ (Nat.mod_lt _ (by positivity))]
      exact (if_congr (cellHflip_iff byte1) rfl rfl).symm
    have hyy : yy = flipped (cellVflip byte1) tileh (ey % tileh) := by
      rw [flipped_eq _ _ _ (Nat.mod_lt _ (by positivity))]
      exact (if_congr (cellVflip_iff byte1) rfl rfl).symm
    have hidx : idx = cellTileIndex byte0 byte1 := (cellTileIndex_eq _ _ hbyte0).symm
    rw [hxx, hyy, hidx, ← cellPalOff_eq hbyte1]
    simp only [tilePixel, wrapped, scaled, mapCellAddr, hhscale, hvscale, hmapw, hmaph, hmapBase, hhscroll, hvscroll,
      htilew, htileh]
    rfl
  have hdata (bpp : Nat) (h : 2 ≤ R 0 / 32 ∧ R 0 / 32 ≤ 4) (hbpp : bppOf (modeOf (s.lr.get L)) = bpp) :
      tileByte (s.lr.get L) (vread s) bpp { idx, xx, yy, palOff := byte1 / 16 } = data bpp := by
    obtain ⟨htilew, -, hsize⟩ := propsOf_tile (s.lr.get L) (hclass h)
    rw [hbpp, Nat.mul_right_comm] at hsize
    simp only [tileByte, tileOffset, htileBase, htilew, hsize]
    rfl
  have hmode (k : Nat) (h : R 0 / 32 = k) : modeOf (s.lr.get L) = modeOfField k := h ▸ modeOf_eq _
  refine ⟨fun h => answerPixel_eq (f := renderTile2) ?_, fun h => answerPixel_eq (f := renderTile4) ?_,
    fun h => answerPixel_eq (f := renderTile8) ?_⟩
  · simp only [renderTile2, hpixel (by omega), hdata 2 (by omega) (by rw [hmode 2 h]; rfl), extract2_eq, applyOffset_eq,
      offset]
  · simp only [renderTile4, hpixel (by omega), hdata 4 (by omega) (by rw [hmode 3 h]; rfl), extract4_eq, applyOffset_eq,
      offset]
  · simp only [renderTile8, hpixel (by omega), hdata 8 (by omega) (by rw [hmode 4 h]; rfl), applyOffset_eq, offset]

/-- Settles O31: the bitmap stages with the properties written out on the register bytes, then each depth's extraction. -/
theorem bitmapModesFollowTheirRules : Obligations.BitmapModesFollowTheirRules := by
  intro s L x y R xx yy data offset
  obtain ⟨hhscale, hvscale, htileBase, -⟩ := propsOf_common (s.lr.get L)
  have hcolumn : bitmapColumn (s.lr.get L) x.val = xx := by rw [bitmapColumn, scaled, hhscale]; rfl
  have hprops (h : 5 ≤ R 0 / 32) : (propsOf (s.lr.get L)).stride = R 6 ∧ (propsOf (s.lr.get L)).palOffset = R 7 % 16 := by
    obtain ⟨-, -, -, -, hstride, hpal, -⟩ := propsOf_bitmap (s.lr.get L) ((class_bitmap_iff _).mpr h)
    exact ⟨hstride, hpal⟩
  have hdata (bpp : Nat) (h : 5 ≤ R 0 / 32) : bitmapByte (s.lr.get L) (vread s) bpp x.val y.val = data bpp := by
    simp only [bitmapByte, bitmapOffset, scaled, hcolumn, hvscale, htileBase, (hprops h).1]
    rfl
  refine ⟨fun h => answerPixel_eq (f := renderBitmap2) ?_, fun h => answerPixel_eq (f := renderBitmap4) ?_,
    fun h => answerPixel_eq (f := renderBitmap8) ?_⟩
  · rw [renderBitmap2, hdata 2 (by omega), hcolumn, (hprops (by omega)).2, extract2_eq, applyOffset_eq]
  · rw [renderBitmap4, hdata 4 (by omega), hcolumn, (hprops (by omega)).2, extract4_eq, applyOffset_eq]
  · rw [renderBitmap8, hdata 8 (by omega), (hprops (by omega)).2, applyOffset_eq]

end Sys2Proof.Machine
end

section
/-! PROOFS. What a pixel depends on (spec/45_compositor.md section 1): its range, the addresses it fetches
(spec/20_memory.md R74, R83), and the register bits its layer's class uses (spec/42_layer_config.md R194). -/

namespace Sys2Proof.Machine

/-- The pixel function of a mode (30_encoding.md R96). -/
def modePixel : Mode → LayerRegs → (Nat → Byte) → Nat → Nat → Nat
  | .text16 => renderText16
  | .text256 => renderText256
  | .tile2 => renderTile2
  | .tile4 => renderTile4
  | .tile8 => renderTile8
  | .bitmap2 => renderBitmap2
  | .bitmap4 => renderBitmap4
  | .bitmap8 => renderBitmap8

/-- `Render` is the gate and the pixel function of the layer's mode (45_compositor.md R245). -/
theorem renderLayer_eq (r : LayerRegs) (fetch : Nat → Byte) (x y : Nat) :
    renderLayer r fetch x y = if layerEnabled r = false then 0 else modePixel (modeOf r) r fetch x y := by
  rw [renderLayer]
  cases modeOf r <;> rfl

/-! ## A pixel from its stages, by the class of its mode -/

section
variable {r r' : LayerRegs} {f g : Nat → Byte} {x y : Nat} {m : Mode}

theorem modePixel_congr_text (hm : classOf m = .text) (h : textPixel r f x y = textPixel r' g x y) :
    modePixel m r f x y = modePixel m r' g x y := by
  cases m
  case text16 => rw [modePixel, renderText16, renderText16, h]
  case text256 => rw [modePixel, renderText256, renderText256, h]
  all_goals exact LayerClass.noConfusion hm

theorem modePixel_congr_tile (hm : classOf m = .tile) (h : tilePixel r f x y = tilePixel r' g x y)
    (hb : tileByte r f (bppOf m) (tilePixel r f x y) = tileByte r' g (bppOf m) (tilePixel r' g x y)) :
    modePixel m r f x y = modePixel m r' g x y := by
  cases m <;> simp only [bppOf] at hb
  case tile2 => rw [modePixel, renderTile2, renderTile2, hb, h]
  case tile4 => rw [modePixel, renderTile4, renderTile4, hb, h]
  case tile8 => rw [modePixel, renderTile8, renderTile8, hb, h]
  all_goals exact LayerClass.noConfusion hm

theorem modePixel_congr_bitmap (hm : classOf m = .bitmap) (hc : bitmapColumn r x = bitmapColumn r' x)
    (hp : (propsOf r).palOffset = (propsOf r').palOffset)
    (hb : bitmapByte r f (bppOf m) x y = bitmapByte r' g (bppOf m) x y) :
    modePixel m r f x y = modePixel m r' g x y := by
  cases m <;> simp only [bppOf] at hb
  case bitmap2 => rw [modePixel, renderBitmap2, renderBitmap2, hb, hc, hp]
  case bitmap4 => rw [modePixel, renderBitmap4, renderBitmap4, hb, hc, hp]
  case bitmap8 => rw [modePixel, renderBitmap8, renderBitmap8, hb, hp]
  all_goals exact LayerClass.noConfusion hm

end

/-! ## The range of a colour index (R247) -/

theorem extract1_le {fg bg n : Nat} (s xx : Nat) (hf : fg ≤ n) (hb : bg ≤ n) : extract1 s xx fg bg ≤ n := by
  unfold extract1
  split <;> assumption

theorem extract2_le (s xx : Nat) : extract2 s xx ≤ 255 := by
  rw [extract2_eq]; omega

theorem extract4_le (s xx : Nat) : extract4 s xx ≤ 255 := by
  rw [extract4_eq]; omega

theorem byte_le (b : Byte) : b.toNat ≤ 255 := Nat.le_of_lt_succ b.isLt

theorem cellPalOff_le (byte1 : Nat) : cellPalOff byte1 ≤ 15 := Nat.le_of_lt_succ (slice_lt byte1 7 4)

/-- The pixel function of a layer's own mode answers a colour index. -/
theorem modePixel_le (r : LayerRegs) (fetch : Nat → Byte) (x y : Nat) : modePixel (modeOf r) r fetch x y ≤ 255 := by
  have hbitmap (h : classOf (modeOf r) = .bitmap) : (propsOf r).palOffset ≤ 15 := (bitmap_bounds r h).2
  cases hm : modeOf r
  all_goals rw [hm] at hbitmap
  case text16 =>
    have hfg := slice_lt (textPixel r fetch x y).byte1 3 0
    have hbg := slice_lt (textPixel r fetch x y).byte1 7 4
    exact extract1_le _ _ (by rw [cellFg16]; omega) (by rw [cellBg16]; omega)
  case text256 => exact extract1_le _ _ (byte_le _) (Nat.zero_le _)
  case tile2 => exact applyOffset_le _ _ (extract2_le _ _) (cellPalOff_le _)
  case tile4 => exact applyOffset_le _ _ (extract4_le _ _) (cellPalOff_le _)
  case tile8 => exact applyOffset_le _ _ (byte_le _) (cellPalOff_le _)
  case bitmap2 => exact applyOffset_le _ _ (extract2_le _ _) (hbitmap rfl)
  case bitmap4 => exact applyOffset_le _ _ (extract4_le _ _) (hbitmap rfl)
  case bitmap8 => exact applyOffset_le _ _ (byte_le _) (hbitmap rfl)

theorem renderLayer_le (r : LayerRegs) (fetch : Nat → Byte) (x y : Nat) : renderLayer r fetch x y ≤ 255 := by
  rw [renderLayer_eq]
  split
  · exact Nat.zero_le _
  · exact modePixel_le r fetch x y

/-- Settles O34: the index `Render` answers is in range, and only the answer changes. -/
theorem renderAnswersAColourIndex : Obligations.RenderAnswersAColourIndex :=
  fun s L x y => ⟨_, renderLayer_le (s.lr.get L) (vread s) x.val y.val, exec_render L x y s⟩

/-! ## The addresses of a pixel's fetches (20_memory.md R74, R83) -/

/-- A wrapped coordinate lies in one of the map's rows or columns (43_tile_renderer.md R202, R204). -/
theorem wrapped_div_lt (v scroll : Nat) {m t : Nat} (hm : 0 < m) (ht : 0 < t) : wrapped v scroll (m * t) / t < m :=
  Nat.div_lt_of_lt_mul (by rw [Nat.mul_comm t]; exact Nat.mod_lt _ (Nat.mul_pos hm ht))

/-- A cell of a row and column is one of the map's (R206). -/
theorem row_mul_add_col_lt {row col w h : Nat} (hr : row < h) (hc : col < w) : row * w + col < h * w :=
  calc row * w + col
    _ < (row + 1) * w := by rw [Nat.succ_mul]; omega
    _ ≤ h * w := Nat.mul_le_mul_right w hr

/-- Both bytes of a map cell lie below 0x5FFFC. -/
theorem mapCellAddr_bound {r : LayerRegs} (h : classOf (modeOf r) ≠ .bitmap) {row col : Nat}
    (hr : row < (propsOf r).maph) (hc : col < (propsOf r).mapw) :
    mapCellAddr (propsOf r).mapBase (propsOf r).mapw row col + 1 ≤ 0x5FFFB := by
  obtain ⟨hmapw, hmaph, hmapBase, -⟩ := map_bounds r h
  have hcell := row_mul_add_col_lt hr hc
  have := (mul_bounds hmaph hmapw).2
  rw [mapCellAddr]
  omega

/-- The data of a tile lie within the tiles of their set (R212): below 0x40000 bytes from the tile base. -/
theorem tileOffset_lt {idx size w h bpp xx yy : Nat} (hidx : idx < 1024) (hsize : size * 8 = w * bpp * h)
    (hle : size ≤ 256) (hbpp : 0 < bpp) (hx : xx < w) (hy : yy < h) : tileOffset idx size w bpp xx yy < 0x40000 := by
  have hinside : yy * w * bpp / 8 + xx * bpp / 8 < size := by
    have hdiv := Nat.div_add_div_le_add_div (x := yy * w * bpp) (y := xx * bpp) (z := 8)
    have hlt : (yy * w + xx) * bpp < h * w * bpp := Nat.mul_lt_mul_of_pos_right (row_mul_add_col_lt hy hx) hbpp
    have hsize' : h * w * bpp = size * 8 := by rw [hsize]; ring
    rw [Nat.add_mul] at hlt
    omega
  have hset : idx * size + size ≤ 1024 * 256 := by
    rw [← Nat.succ_mul]
    exact Nat.mul_le_mul hidx hle
  rw [tileOffset]
  omega

section
variable {r : LayerRegs} {f g : Nat → Byte}

/-- The cell fetches of a pixel agree when the fetches agree up to 0x5FFFB (R206). -/
theorem cell_fetch_congr (h : classOf (modeOf r) ≠ .bitmap) (hfg : ∀ a ≤ 0x5FFFB, f a = g a) {w t : Nat} (hw : 0 < w)
    (ht : 0 < t) (v c scroll scroll' : Nat) :
    let ma := mapCellAddr (propsOf r).mapBase (propsOf r).mapw (wrapped v scroll ((propsOf r).maph * t) / t)
      (wrapped c scroll' ((propsOf r).mapw * w) / w)
    f ma = g ma ∧ f (ma + 1) = g (ma + 1) := by
  obtain ⟨hmapw, hmaph, -⟩ := map_bounds r h
  have hcell := mapCellAddr_bound h (wrapped_div_lt v scroll (by omega) ht) (wrapped_div_lt c scroll' (by omega) hw)
  exact ⟨hfg _ (Nat.le_of_succ_le hcell), hfg _ hcell⟩

/-- The text stages fetch at no address above 0x7FFFB. -/
theorem textPixel_fetch_congr (h : classOf (modeOf r) = .text) (hfg : ∀ a ≤ 0x7FFFB, f a = g a) (x y : Nat) :
    textPixel r f x y = textPixel r g x y := by
  have hnb : classOf (modeOf r) ≠ .bitmap := by rw [h]; decide
  obtain ⟨h0, h1⟩ := cell_fetch_congr hnb (fun a ha => hfg a (by omega)) (show 0 < 8 by decide) (show 0 < 8 by decide)
    (scaled y (propsOf r).vscale) (scaled x (propsOf r).hscale) (propsOf r).vscroll (propsOf r).hscroll
  have hdata (b : Byte) (e : Nat) :
      f ((propsOf r).tileBase + (b.toNat * 8 + e % 8)) = g ((propsOf r).tileBase + (b.toNat * 8 + e % 8)) :=
    hfg _ (by have := b.isLt; have := (tileBase_bounds r).1; omega)
  simp only [textPixel, h0, h1, hdata]

/-- The tile stages up to the tile data offset fetch at no address above 0x7FFFB. -/
theorem tilePixel_fetch_congr (h : classOf (modeOf r) = .tile) (hfg : ∀ a ≤ 0x7FFFB, f a = g a) (x y : Nat) :
    tilePixel r f x y = tilePixel r g x y := by
  have hnb : classOf (modeOf r) ≠ .bitmap := by rw [h]; decide
  obtain ⟨hw, hh⟩ := tile_bounds r hnb
  obtain ⟨h0, h1⟩ := cell_fetch_congr hnb (fun a ha => hfg a (by omega)) (w := (propsOf r).tilew)
    (t := (propsOf r).tileh) (by omega) (by omega)
    (scaled y (propsOf r).vscale) (scaled x (propsOf r).hscale) (propsOf r).vscroll (propsOf r).hscroll
  simp only [tilePixel, h0, h1]

theorem flipped_lt (flip : Bool) {k c : Nat} (hc : c < 8 * 2 ^ (k % 2)) :
    flipped flip (8 * 2 ^ (k % 2)) c < 8 * 2 ^ (k % 2) := by
  rw [flipped_eq _ _ _ hc]
  split <;> omega

/-- The tile index has ten bits, and the flipped local coordinate lies in the tile (30_encoding.md R100; R211). -/
theorem tilePixel_bounds (h : classOf (modeOf r) = .tile) (x y : Nat) :
    (tilePixel r f x y).idx < 1024 ∧ (tilePixel r f x y).xx < (propsOf r).tilew ∧
    (tilePixel r f x y).yy < (propsOf r).tileh := by
  obtain ⟨hw, hh, -⟩ := propsOf_tile r h
  have hidx (b0 b1 : Byte) : cellTileIndex b0.toNat b1.toNat < 1024 := by
    have := b0.isLt
    rw [cellTileIndex_eq _ _ b0.isLt]
    omega
  refine ⟨hidx _ _, ?_, ?_⟩
  · simp only [tilePixel, hw]
    exact flipped_lt _ (Nat.mod_lt _ (by positivity))
  · simp only [tilePixel, hh]
    exact flipped_lt _ (Nat.mod_lt _ (by positivity))

/-- The tile data fetch at the layer's own depth is at no address above 0x7FFFB. -/
theorem tileByte_fetch_congr (h : classOf (modeOf r) = .tile) (hfg : ∀ a ≤ 0x7FFFB, f a = g a) (x y : Nat) :
    tileByte r f (propsOf r).bpp (tilePixel r f x y) = tileByte r g (propsOf r).bpp (tilePixel r g x y) := by
  have hnb : classOf (modeOf r) ≠ .bitmap := by rw [h]; decide
  obtain ⟨hidx, hxx, hyy⟩ := tilePixel_bounds (f := g) h x y
  have hoff := tileOffset_lt hidx (tileSize_mul_eight r) (tileSize_bounds r hnb).2 (bpp_bounds r).1 hxx hyy
  have hbase := (tileBase_bounds r).1
  rw [tilePixel_fetch_congr h hfg, tileByte, tileByte, hfg _ (by omega)]

/-- The bitmap data fetch at the layer's own depth is at no address above 0xB76FF. -/
theorem bitmapByte_fetch_congr (h : classOf (modeOf r) = .bitmap) (hfg : ∀ a ≤ 0xB76FF, f a = g a) (x : ScreenX)
    (y : ScreenY) : bitmapByte r f (propsOf r).bpp x.val y.val = bitmapByte r g (propsOf r).bpp x.val y.val := by
  have hxx : bitmapColumn r x.val ≤ 639 := (Nat.div_le_self _ _).trans (Nat.le_of_lt_succ x.isLt)
  have hyy : scaled y.val (propsOf r).vscale ≤ 479 := (Nat.div_le_self _ _).trans (Nat.le_of_lt_succ y.isLt)
  have hrow : scaled y.val (propsOf r).vscale * (propsOf r).stride ≤ 479 * 255 :=
    Nat.mul_le_mul hyy (bitmap_bounds r h).1
  have hcol : bitmapColumn r x.val * (propsOf r).bpp ≤ 639 * 8 := Nat.mul_le_mul hxx (bpp_bounds r).2
  have hbase := (tileBase_bounds r).1
  rw [bitmapByte, bitmapByte, hfg _ (by rw [bitmapOffset]; omega)]

/-- The pixel of a text or tile layer depends on no byte above 0x7FFFB. -/
theorem renderLayer_fetch_congr_map (h : classOf (modeOf r) ≠ .bitmap) (hfg : ∀ a ≤ 0x7FFFB, f a = g a) (x y : Nat) :
    renderLayer r f x y = renderLayer r g x y := by
  rw [renderLayer_eq, renderLayer_eq]
  cases hc : classOf (modeOf r)
  case text => rw [modePixel_congr_text hc (textPixel_fetch_congr hc hfg x y)]
  case tile => rw [modePixel_congr_tile hc (tilePixel_fetch_congr hc hfg x y) (tileByte_fetch_congr hc hfg x y)]
  case bitmap => exact absurd hc h

/-- The pixel of a bitmap layer depends on no byte above 0xB76FF. -/
theorem renderLayer_fetch_congr_bitmap (h : classOf (modeOf r) = .bitmap) (hfg : ∀ a ≤ 0xB76FF, f a = g a) (x : ScreenX)
    (y : ScreenY) : renderLayer r f x.val y.val = renderLayer r g x.val y.val := by
  rw [renderLayer_eq, renderLayer_eq, modePixel_congr_bitmap h rfl rfl (bitmapByte_fetch_congr h hfg x y)]

end

/-- Settles O35: the last cell, tile and bitmap addresses by the ranges of the properties they are made of. -/
theorem rendererFetchesStayInRange : Obligations.RendererFetchesStayInRange := by
  intro r f g x y
  refine ⟨fun hfg => ?_, fun hmode hfg => renderLayer_fetch_congr_map ?_ hfg x.val y.val⟩
  · by_cases h : classOf (modeOf r) = .bitmap
    · exact renderLayer_fetch_congr_bitmap h hfg x y
    · exact renderLayer_fetch_congr_map h (fun a ha => hfg a (by omega)) x.val y.val
  · rw [Ne, class_bitmap_iff]
    exact Nat.not_le_of_gt (Nat.lt_succ_of_le hmode)

/-! ## The register bits a class uses (42_layer_config.md R194) -/

/-- The properties that the map stages of text and tile layers use are the same. -/
structure SameMap (P Q : Props) : Prop where
  hscale : P.hscale = Q.hscale
  vscale : P.vscale = Q.vscale
  hscroll : P.hscroll = Q.hscroll
  vscroll : P.vscroll = Q.vscroll
  mapw : P.mapw = Q.mapw
  maph : P.maph = Q.maph
  mapBase : P.mapBase = Q.mapBase
  tileBase : P.tileBase = Q.tileBase

/-- The properties of the tiles are the same. -/
structure SameTiles (P Q : Props) : Prop where
  tilew : P.tilew = Q.tilew
  tileh : P.tileh = Q.tileh
  tileSize : P.tileSize = Q.tileSize

/-- The properties that a bitmap layer uses are the same. -/
structure SameBitmap (P Q : Props) : Prop where
  hscale : P.hscale = Q.hscale
  vscale : P.vscale = Q.vscale
  tileBase : P.tileBase = Q.tileBase
  stride : P.stride = Q.stride
  palOffset : P.palOffset = Q.palOffset

section
variable {r r' : LayerRegs}

theorem textPixel_congr (h : SameMap (propsOf r) (propsOf r')) (fetch : Nat → Byte) (x y : Nat) :
    textPixel r fetch x y = textPixel r' fetch x y := by
  simp only [textPixel, h.hscale, h.vscale, h.hscroll, h.vscroll, h.mapw, h.maph, h.mapBase, h.tileBase]

theorem tilePixel_congr (h : SameMap (propsOf r) (propsOf r')) (ht : SameTiles (propsOf r) (propsOf r'))
    (fetch : Nat → Byte) (x y : Nat) : tilePixel r fetch x y = tilePixel r' fetch x y := by
  simp only [tilePixel, h.hscale, h.vscale, h.hscroll, h.vscroll, h.mapw, h.maph, h.mapBase, ht.tilew, ht.tileh]

theorem tileByte_congr (h : SameMap (propsOf r) (propsOf r')) (ht : SameTiles (propsOf r) (propsOf r'))
    (fetch : Nat → Byte) (bpp : Nat) (p : TilePixel) : tileByte r fetch bpp p = tileByte r' fetch bpp p := by
  simp only [tileByte, h.tileBase, ht.tilew, ht.tileSize]

theorem bitmapColumn_congr (h : SameBitmap (propsOf r) (propsOf r')) (x : Nat) :
    bitmapColumn r x = bitmapColumn r' x := by
  rw [bitmapColumn, bitmapColumn, h.hscale]

theorem bitmapByte_congr (h : SameBitmap (propsOf r) (propsOf r')) (fetch : Nat → Byte) (bpp x y : Nat) :
    bitmapByte r fetch bpp x y = bitmapByte r' fetch bpp x y := by
  simp only [bitmapByte, bitmapColumn_congr h, h.vscale, h.tileBase, h.stride]

/-- Register 0 decides the mode and the gate (R181, R182). -/
theorem mode_and_gate_congr (h : reg r 0 = reg r' 0) : modeOf r = modeOf r' ∧ layerEnabled r = layerEnabled r' := by
  rw [modeOf_eq, modeOf_eq, layerEnabled, layerEnabled, h]
  exact ⟨rfl, rfl⟩

/-- The bits that place the map, the scroll and the tile data (R184 to R189). -/
theorem sameMap_of_bits (hr0 : reg r 0 = reg r' 0) (hc : classOf (modeOf r) ≠ .bitmap)
    (hr1 : reg r 1 % 16 = reg r' 1 % 16) (hregs : ∀ i ∈ [2, 3, 4, 5, 6, 8], reg r i = reg r' i)
    (hr7 : reg r 7 % 16 = reg r' 7 % 16) (hr9 : reg r 9 % 16 = reg r' 9 % 16) :
    SameMap (propsOf r) (propsOf r') := by
  obtain ⟨hmode, -⟩ := mode_and_gate_congr hr0
  obtain ⟨hhscale, hvscale, htileBase, -⟩ := propsOf_common r
  obtain ⟨hhscale', hvscale', htileBase', -⟩ := propsOf_common r'
  obtain ⟨hmapw, hmaph, hmapBase, hhscroll, hvscroll⟩ := propsOf_map r hc
  obtain ⟨hmapw', hmaph', hmapBase', hhscroll', hvscroll'⟩ := propsOf_map r' (hmode ▸ hc)
  have hw : reg r 1 % 4 = reg r' 1 % 4 := by omega
  have hh : reg r 1 / 4 % 4 = reg r' 1 / 4 % 4 := by omega
  have hr2 := hregs 2 (by decide)
  have hr3 := hregs 3 (by decide)
  have hr4 := hregs 4 (by decide)
  have hr5 := hregs 5 (by decide)
  have hr6 := hregs 6 (by decide)
  have hr8 := hregs 8 (by decide)
  constructor
  case hscale => rw [hhscale, hhscale', hr0]
  case vscale => rw [hvscale, hvscale', hr0]
  case hscroll => rw [hhscroll, hhscroll', hr6, hr7]
  case vscroll => rw [hvscroll, hvscroll', hr8, hr9]
  case mapw => rw [hmapw, hmapw', hw]
  case maph => rw [hmaph, hmaph', hh]
  case mapBase => rw [hmapBase, hmapBase', hr2, hr3]
  case tileBase => rw [htileBase, htileBase', hr4, hr5]

/-- The bits that give a tile layer its tiles (R188, R192). -/
theorem sameTiles_of_bits (hr0 : reg r 0 = reg r' 0) (hc : classOf (modeOf r) = .tile)
    (hr1 : reg r 1 % 64 = reg r' 1 % 64) : SameTiles (propsOf r) (propsOf r') := by
  obtain ⟨hmode, -⟩ := mode_and_gate_congr hr0
  obtain ⟨hw, hh, hsize⟩ := propsOf_tile r hc
  obtain ⟨hw', hh', hsize'⟩ := propsOf_tile r' (hmode ▸ hc)
  have hwidth : reg r 1 / 16 % 2 = reg r' 1 / 16 % 2 := by omega
  have hheight : reg r 1 / 32 % 2 = reg r' 1 / 32 % 2 := by omega
  constructor
  case tilew => rw [hw, hw', hwidth]
  case tileh => rw [hh, hh', hheight]
  case tileSize => rw [hsize, hsize', hwidth, hheight, hmode]

/-- The bits that a bitmap layer uses (R184, R187, R190, R191). -/
theorem sameBitmap_of_bits (hr0 : reg r 0 = reg r' 0) (hc : classOf (modeOf r) = .bitmap)
    (hregs : ∀ i ∈ [4, 5, 6], reg r i = reg r' i) (hr7 : reg r 7 % 16 = reg r' 7 % 16) :
    SameBitmap (propsOf r) (propsOf r') := by
  obtain ⟨hmode, -⟩ := mode_and_gate_congr hr0
  obtain ⟨hhscale, hvscale, htileBase, -⟩ := propsOf_common r
  obtain ⟨hhscale', hvscale', htileBase', -⟩ := propsOf_common r'
  obtain ⟨-, -, -, -, hstride, hpal, -⟩ := propsOf_bitmap r hc
  obtain ⟨-, -, -, -, hstride', hpal', -⟩ := propsOf_bitmap r' (hmode ▸ hc)
  have hr4 := hregs 4 (by decide)
  have hr5 := hregs 5 (by decide)
  have hr6 := hregs 6 (by decide)
  constructor
  case hscale => rw [hhscale, hhscale', hr0]
  case vscale => rw [hvscale, hvscale', hr0]
  case tileBase => rw [htileBase, htileBase', hr4, hr5]
  case stride => rw [hstride, hstride', hr6]
  case palOffset => rw [hpal, hpal', hr7]

theorem layerEnabled_eq_false (h : reg r 0 % 2 = 0) : layerEnabled r = false := by
  rw [← Bool.not_eq_true, layerEnabled_eq]
  omega

end

/-- Settles O28: a disabled layer shows 0; otherwise the bits give the properties that the stages of the class use. -/
theorem ignoredRegisterBitsChangeNoPixel : Obligations.IgnoredRegisterBitsChangeNoPixel := by
  intro r r' fetch x y R R'
  refine ⟨fun h h' => ?disabled, fun hr0 hmap hr1 hregs hr7 hr9 => ?map, fun hr0 hbitmap hregs hr7 => ?bitmap⟩
  case disabled =>
    rw [renderLayer, renderLayer, if_pos (layerEnabled_eq_false h), if_pos (layerEnabled_eq_false h')]
  case map =>
    obtain ⟨hmode, hgate⟩ := mode_and_gate_congr (r := r) (r' := r') hr0
    have hnb : classOf (modeOf r) ≠ .bitmap := by
      rw [Ne, class_bitmap_iff]
      exact Nat.not_le_of_gt (Nat.lt_succ_of_le hmap)
    have hr1' : R 1 % 16 = R' 1 % 16 := by split at hr1 <;> omega
    have hsame := sameMap_of_bits (r := r) (r' := r') hr0 hnb hr1' hregs hr7 hr9
    rw [renderLayer_eq, renderLayer_eq, ← hmode, ← hgate]
    cases hc : classOf (modeOf r)
    case text => rw [modePixel_congr_text hc (textPixel_congr hsame fetch x y)]
    case tile =>
      have htext : ¬ R 0 / 32 ≤ 1 := fun h => by
        rw [(class_text_iff r).mpr h] at hc; exact LayerClass.noConfusion hc
      rw [if_neg htext] at hr1
      have htiles := sameTiles_of_bits (r := r) (r' := r') hr0 hc hr1
      have hpixel := tilePixel_congr hsame htiles fetch x y
      rw [modePixel_congr_tile hc hpixel (by rw [hpixel, tileByte_congr hsame htiles])]
    case bitmap => exact absurd hc hnb
  case bitmap =>
    obtain ⟨hmode, hgate⟩ := mode_and_gate_congr (r := r) (r' := r') hr0
    have hc := (class_bitmap_iff r).mpr hbitmap
    have hsame := sameBitmap_of_bits (r := r) (r' := r') hr0 hc hregs hr7
    rw [renderLayer_eq, renderLayer_eq, ← hmode, ← hgate, modePixel_congr_bitmap hc (bitmapColumn_congr hsame x)
      hsame.palOffset (bitmapByte_congr hsame fetch _ x y)]

end Sys2Proof.Machine
end

section
/-! PROOFS. The frame buffer (spec/45_compositor.md sections 4, 5): one pixel, one pass, and the pass as a loop over pixels. -/

namespace Sys2Proof.Machine

/-! ## One pixel and one pass -/

theorem exec_frameBufferWrite (x : ScreenX) (y : ScreenY) (c : Colour) (s : State) :
    exec (.frameBufferWrite x y c) s = .next { s with fb := (writePixel s x.val y.val c).fb, answer := .none } := rfl

/-- Settles O38: the pixel's four cells, byte by byte. -/
theorem frameBufferWriteSetsFourBytes : Obligations.FrameBufferWriteSetsFourBytes := by
  refine fun s x y c => ⟨_, exec_frameBufferWrite x y c s, rfl, fun a => ?_⟩
  exact writePixel_fb_read s x.val y.val c a

/-- The composited index names a palette entry (R248). -/
theorem compositePixel_lt (s : State) (x y : Nat) : compositePixel s x y < 256 := by
  rw [compositePixel_eq]
  split <;> exact Nat.lt_succ_of_le (renderLayer_le _ _ _ _)

/-- Settles O39: the colour of a pixel is looked up at its composited index. -/
theorem frameDrawsEveryPixel : Obligations.FrameDrawsEveryPixel := by
  intro s
  have hframe := exec_frame s
  have hbytes (x : ScreenX) (y : ScreenY) := frameCells_pixel s x.isLt y.isLt
  generalize frameCells s = m at hframe hbytes
  exact ⟨_, hframe, rfl, fun x y => ⟨⟨_, compositePixel_lt s x.val y.val⟩, pixelColour s x.val y.val,
    exec_composite x y s, exec_paletteLookup ⟨_, compositePixel_lt s x.val y.val⟩ s, hbytes x y⟩⟩

/-! ## The pass as a loop (R256, R257) -/

/-- One pixel of the loop: `FrameBufferWrite(x, y, PaletteLookup(Composite(x, y)))` in the present state. -/
def drawPixel (u : State) (p : ScreenX × ScreenY) : State :=
  writePixel u p.1.val p.2.val (pixelColour u p.1.val p.2.val)

/-- The pixel that a byte of the frame buffer belongs to, as its number in the order of the pass (R252). -/
def pixelNumber (p : ScreenX × ScreenY) : Nat := p.2.val * 640 + p.1.val

/-- Drawing a pixel gives its bytes what the whole pass gives them, and keeps the others. -/
theorem drawPixel_fb_read (s : State) (p : ScreenX × ScreenY) (a : Nat) :
    memRead (drawPixel s p).fb a = if a / 4 = pixelNumber p then memRead (frameCells s) a else memRead s.fb a := by
  obtain ⟨h0, h1, h2, h3⟩ := frameCells_pixel s p.1.isLt p.2.isLt
  have hbase : pixelBase p.1.val p.2.val = 4 * pixelNumber p := rfl
  rw [drawPixel, writePixel_fb_read]
  by_cases h : a / 4 = pixelNumber p
  · rw [if_pos h]
    obtain rfl | rfl | rfl | rfl : a = pixelBase p.1.val p.2.val ∨ a = pixelBase p.1.val p.2.val + 1 ∨
        a = pixelBase p.1.val p.2.val + 2 ∨ a = pixelBase p.1.val p.2.val + 3 := by omega
    · rw [if_pos rfl, h0]
    · rw [if_neg (by omega), if_pos rfl, h1]
    · rw [if_neg (by omega), if_neg (by omega), if_pos rfl, h2]
    · rw [if_neg (by omega), if_neg (by omega), if_neg (by omega), if_pos rfl, h3]
  · rw [if_neg h, if_neg (by omega), if_neg (by omega), if_neg (by omega), if_neg (by omega)]

/-- The pass does not see what a drawn pixel left in the frame buffer (R257). -/
theorem frameCells_drawPixel (s : State) (p : ScreenX × ScreenY) : frameCells (drawPixel s p) = frameCells s :=
  frameCells_congr rfl rfl rfl rfl rfl

section
variable (order : List (ScreenX × ScreenY)) (s : State)

/-- The loop changes the frame buffer only. -/
theorem drawPixels_eq : order.foldl drawPixel s = { s with fb := (order.foldl drawPixel s).fb } := by
  induction order generalizing s with
  | nil => rfl
  | cons p order ih => rw [List.foldl_cons, ih]; rfl

/-- The loop keeps the frame buffer's canonical form. -/
theorem drawPixels_fb_wf (h : Memory.wf Config.fbSize s.fb) :
    Memory.wf Config.fbSize (order.foldl drawPixel s).fb := by
  induction order generalizing s with
  | nil => exact h
  | cons p order ih => exact ih _ (writePixel_fb_wf h p.1.isLt p.2.isLt _)

/-- Every byte after the loop: as the pass gives it where its pixel was drawn, and else as it was. -/
theorem drawPixels_fb_read (a : Nat) :
    memRead (order.foldl drawPixel s).fb a =
      if ∃ p ∈ order, a / 4 = pixelNumber p then memRead (frameCells s) a else memRead s.fb a := by
  induction order generalizing s with
  | nil => simp
  | cons p order ih =>
    simp only [List.foldl_cons, ih, frameCells_drawPixel, drawPixel_fb_read, List.mem_cons, exists_eq_or_imp]
    by_cases hp : a / 4 = pixelNumber p <;> simp [hp]

end

/-- A canonical store holds no byte outside its size. -/
theorem memRead_of_size_le {size : Nat} {m : Memory} (h : Memory.wf size m) {a : Nat} (ha : size ≤ a) :
    memRead m a = unlistedByte :=
  memRead_of_not_mem m a fun c hc => Nat.ne_of_lt (Nat.lt_of_lt_of_le (h.2 c hc).1 ha)

/-- The pixel of a byte of the frame buffer. -/
theorem exists_pixelNumber_eq {a : Nat} (h : a < Config.fbSize) : ∃ p, a / 4 = pixelNumber p := by
  rw [Config.fbSize] at h
  refine ⟨⟨⟨a / 4 % 640, by omega⟩, ⟨a / 4 / 640, by omega⟩⟩, ?_⟩
  simp only [pixelNumber]
  omega

/-- Settles O40: over every sequence that holds all pixels the loop leaves the bytes of the pass, in the canonical form that
bytes determine. -/
theorem frameIsThePixelLoopInAnyOrder : Obligations.FrameIsThePixelLoopInAnyOrder := by
  intro s order hwf hall
  have hfb : frameCells s = (order.foldl drawPixel s).fb := by
    refine memory_ext (frameCells_wf s) (drawPixels_fb_wf order s hwf) fun a => ?_
    by_cases ha : a < Config.fbSize
    · obtain ⟨p, hp⟩ := exists_pixelNumber_eq ha
      rw [drawPixels_fb_read, if_pos ⟨p, hall p, hp⟩]
    · rw [memRead_of_size_le (frameCells_wf s) (by omega),
        memRead_of_size_le (drawPixels_fb_wf order s hwf) (by omega)]
  have hloop : exec .frame s = .next ((order.foldl drawPixel s).give .none) := by
    rw [exec_frame, hfb, drawPixels_eq order s]; rfl
  exact hloop

end Sys2Proof.Machine
end

section
/-! PROOFS. Reset, power-on and the snapshot (spec/70_reset_and_hazards.md, spec/60_exceptions.md R281). -/

namespace Sys2Proof.Machine

/-- Settles O42: the fields that `Reset()` sets, and the answer. -/
theorem resetRestoresTheDefaults : Obligations.ResetRestoresTheDefaults := fun _ => rfl

/-- Settles O44: `PowerOn()` sets every field but the requests. -/
theorem powerOnLoadsTheParameters : Obligations.PowerOnLoadsTheParameters := fun _ _ => rfl

/-- Settles O45: the named parameters meet the constraints, so the platform's request is performed; what it loads is what
`State.reset` holds. -/
theorem resetStateIsPowerOnUnderNamedParameters : Obligations.ResetStateIsPowerOnUnderNamedParameters := by
  refine ⟨?_, fun s => ⟨_, powerOnLoadsTheParameters s Config.openParamsT, ?_⟩⟩
  · have hwf := (wellFormed_poweron_iff Config.openParamsT).mpr openParamsT_ok
    exact ((stepRunsAnyEncodedOperation State.off (.poweron Config.openParamsT) [] hwf rfl).1 rfl).trans
      (powerOnLoadsTheParameters _ _)
  · unfold State.reset Config.openParamsT
    -- The named parameters need not be computed.
    generalize Config.resetParamsT = q
    rfl

/-- Settles O46: each byte of a copy is the one that `VREAD` gives at its address. -/
theorem snapshotCopiesTheStores : Obligations.SnapshotCopiesTheStores :=
  fun s => ⟨s.vram, s.pal, s.lr, rfl, fun _ h => (vread_ram s h).symm, fun _ h => memRead_pal_eq_vread s h,
    fun L i => (vread_lreg s L i).symm⟩

/-! ## The reads after a reset (70_reset_and_hazards.md R295) -/

section
variable {s : State}

/-- With the selected pointer and its step cleared the window shows zeros (41_io_ports.md R152, R154, R156). -/
theorem window_of_cleared (hptr : s.ptr = #v[0, 0]) (hinc : s.inc = #v[0, 0]) :
    window0 s = 0 ∧ window1 s = 0 ∧ window2 s = 0 := by
  have hp : ∀ k, (#v[0, 0] : Vector VAddr 2).get k = 0 := by decide
  have hi : ∀ k, (#v[0, 0] : Vector (BitVec 4) 2).get k = 0 := by decide
  rw [window0, window1, window2, hptr, hinc, hp, hi]
  decide

/-- With step 0 a data port read leaves its pointer (R168). -/
theorem dataPortRead_of_step_zero {k : PtrId} (h : s.inc.get k = 0) :
    dataPortRead s k = { s with answer := .byte (vread s (s.ptr.get k).toNat) } := by
  have hset : s.ptr.set k (s.ptr.get k) = s.ptr := Vector.set_getElem_self _
  have hstep : s.ptr.get k + (s.inc.get k).setWidth 20 = s.ptr.get k := by rw [h]; exact BitVec.add_zero _
  rw [dataPortRead_eq, hstep, hset]

/-- Port 3 with step 0 answers the same byte again and again. -/
theorem exec_pr3_of_step_zero (h : s.inc.get 0 = 0) :
    let u := { s with answer := .byte (vread s (s.ptr.get 0).toNat) }
    exec .pr3 s = .next u ∧ exec .pr3 u = .next u := by
  refine ⟨by rw [exec_pr3, dataPortRead_of_step_zero h], ?_⟩
  exact congrArg Host.Outcome.next
    (dataPortRead_of_step_zero (s := { s with answer := .byte (vread s (s.ptr.get 0).toNat) }) h)

end

/-- The layer registers that 00_scope.md R6 asks for: layer 0 is enabled and its tile data are at 0x20000. -/
theorem propsOf_layerReset {r : LayerRegs} (hbit : (r.get 0).getLsbD 0 = true) (hlow : r.get 4 = 0x00)
    (hhigh : r.get 5 = 0x80) : (propsOf r).enabled = true ∧ (propsOf r).tileBase = 0x20000 := by
  obtain ⟨-, -, htileBase, henabled, -⟩ := propsOf_common r
  constructor
  · rw [henabled, layerEnabled_eq]
    simpa [reg, BitVec.getLsbD, Nat.testBit_zero] using hbit
  · rw [htileBase, reg, reg, hlow, hhigh]
    rfl

/-- Settles O43: the reset clears pointers and steps and loads layer registers that meet 00_scope.md R6. -/
theorem afterResetTheFixedReadsHold : Obligations.AfterResetTheFixedReadsHold := by
  intro s b hinv
  obtain ⟨-, -, -, -, hbit, hlow, hhigh, -⟩ := hinv
  refine ⟨_, exec_pw5Reset s b, fun sel i hi => ?window, exec_answer_congr (exec_pr5 _) (sel_setWidth_eq b), ?port3,
    (vread_lreg _ 0 4).trans hlow, (vread_lreg _ 0 5).trans hhigh, ?bit, propsOf_layerReset hbit hlow hhigh⟩
  case window =>
    obtain ⟨h0, h1, h2⟩ := window_of_cleared
      (s := { controllerReset s with sel := sel, answer := .none }) rfl rfl
    simp only [List.mem_cons, List.not_mem_nil, or_false] at hi
    rcases hi with rfl | rfl | rfl
    · exact exec_answer_congr (exec_pr0 _) h0
    · exact exec_answer_congr (exec_pr1 _) h1
    · exact exec_answer_congr (exec_pr2 _) h2
  case port3 =>
    obtain ⟨hfirst, hagain⟩ := exec_pr3_of_step_zero (s := { controllerReset s with sel := b, answer := .none }) rfl
    exact ⟨_, hfirst, rfl, hagain⟩
  case bit => exact (congrArg (BitVec.getLsbD · 0) (vread_lreg _ 0 0)).trans hbit

end Sys2Proof.Machine
end

section
/-! PROOFS. What every operation changes (spec/10_state.md R45), and what every step and every run keeps. -/

namespace Sys2Proof.Machine

/-! ## What an operation can do -/

/-- What an operation that answers a next state has done: most give an answer only; the others write through the decoder,
move or set a pointer, set the selector, reset, draw, or power on. -/
inductive Effect (s : State) : Instr → State → Prop
  | answer (i : Instr) (a : Answer) : Effect s i (s.give a)
  | window0 (n a : BitVec 4) : Effect s (.pw0 n a) ((setWindow0 s n a).give .none)
  | window1 (v : Byte) : Effect s (.pw1 v) ((setWindow1 s v).give .none)
  | window2 (v : Byte) : Effect s (.pw2 v) ((setWindow2 s v).give .none)
  | read0 : Effect s .pr3 (dataPortRead s 0)
  | read1 : Effect s .pr4 (dataPortRead s 1)
  | write0 (v : Byte) : Effect s (.pw3 v) (dataPortWrite s 0 v)
  | write1 (v : Byte) : Effect s (.pw4 v) (dataPortWrite s 1 v)
  | select (b : BitVec 1) : Effect s (.pw5Select b) ((s.setSel b).give .none)
  | resetSelect (b : BitVec 1) : Effect s (.pw5Reset b) (((controllerReset s).setSel b).give .none)
  | ram (o : BitVec 17) (v : Byte) :
    Effect s (.vaddrRam o (.write v)) ((s.setVram (memWrite s.vram o.toNat v)).give .none)
  | lreg0 (r : BitVec 4) (v : Byte) : Effect s (.vaddrLreg0 r (.write v)) ((s.setLayerReg 0 r.toFin v).give .none)
  | lreg1 (r : BitVec 4) (v : Byte) : Effect s (.vaddrLreg1 r (.write v)) ((s.setLayerReg 1 r.toFin v).give .none)
  | pal (o : BitVec 9) (v : Byte) :
    Effect s (.vaddrPal o (.write v)) ((s.setPal (memWrite s.pal o.toNat v)).give .none)
  | vwrite (a : VAddr) (v : Byte) : Effect s (.vwrite a v) ((vwrite s a.toNat v).give .none)
  | advance (k : PtrId) : Effect s (.advance k) ((advance s k).give .none)
  | pixel (x : ScreenX) (y : ScreenY) (c : Colour) :
    Effect s (.frameBufferWrite x y c) ((writePixel s x.val y.val c).give .none)
  | frame : Effect s .frame ((s.setFb (frameCells s)).give .none)
  | reset : Effect s .reset ((controllerReset s).give .none)
  | poweron (p : Config.OpenParams) : Effect s (.poweron p) ((powerOn s p).give .none)

/-- Every operation has one of these effects. -/
theorem exec_effect {i : Instr} {s t : State} (h : exec i s = .next t) : Effect s i t := by
  cases i <;> obtain rfl := Host.Outcome.next.inj h
  case vaddrRam o acc | vaddrLreg0 o acc | vaddrLreg1 o acc | vaddrPal o acc => cases acc <;> constructor
  case vaddrRom o acc => cases acc <;> exact .answer _ _
  case vaddrUnmapped1 acc | vaddrUnmapped2 acc | vaddrUnmapped3 acc => cases acc <;> exact .answer _ _
  case pw0 n a => exact .window0 n a
  case pw1 v => exact .window1 v
  case pw2 v => exact .window2 v
  case pr3 => exact .read0
  case pr4 => exact .read1
  case pw3 v => exact .write0 v
  case pw4 v => exact .write1 v
  case pw5Select b => exact .select b
  case pw5Reset b => exact .resetSelect b
  case vwrite a v => exact .vwrite a v
  case advance k => exact .advance k
  case frameBufferWrite x y c => exact .pixel x y c
  case frame => exact .frame
  case reset => exact .reset
  case poweron p => exact .poweron p
  all_goals exact .answer _ _

/-! ## The access matrix (10_state.md R45) -/

/-- Settles O50, by the effect of the operation: a field that an effect does not name is left as it was. -/
theorem accessMatrixOfWrites : Obligations.AccessMatrixOfWrites := by
  intro i s t h
  cases exec_effect h
  all_goals simp [vwrite, setWindow0_eq, setWindow1_eq, setWindow2_eq, dataPortRead_eq, dataPortWrite_eq, writePixel]

/-! ## The invariant -/

theorem give_inv {s : State} (h : s.Inv) (a : Answer) : (s.give a).Inv := inv_of_stores h rfl rfl rfl rfl rfl

/-- Every well-formed operation keeps the invariant, by its effect on the four stores and the parameters. -/
theorem exec_inv {i : Instr} {s t : State} (hs : s.Inv) (hw : i.wellFormed = true) (h : exec i s = .next t) : t.Inv := by
  cases exec_effect h
  case vwrite a v => exact give_inv (vwrite_inv hs _ v) _
  case write0 v | write1 v => exact inv_of_stores (vwrite_inv hs _ v) rfl rfl rfl rfl rfl
  case ram o v =>
    exact accessRegion_inv hs (.ram o.toNat) (.write v) (fun _ e => Region.ram.inj e ▸ o.isLt)
      (fun _ e => Region.noConfusion e)
  case pal o v =>
    exact accessRegion_inv hs (.pal o.toNat) (.write v) (fun _ e => Region.noConfusion e)
      (fun _ e => Region.pal.inj e ▸ o.isLt)
  case pixel x y c => exact give_inv (writePixel_inv hs x.isLt y.isLt c) _
  case frame => exact give_inv (setFb_frameCells_inv hs) _
  case reset | resetSelect => exact inv_of_stores (controllerReset_inv hs) rfl rfl rfl rfl rfl
  case poweron p => exact give_inv (powerOn_inv s ((wellFormed_poweron_iff p).mp hw)) _
  all_goals exact inv_of_stores hs rfl rfl rfl rfl rfl

/-- Taking a request off leaves the stores, the registers, the parameters, the power-on mark and the answer. -/
theorem takeRequest_frame {s s' : State} {src : Source} {r : Request} (h : takeRequest s = some (src, r, s')) :
    s' = { s with pending := s'.pending, alone := s'.alone } := by
  rcases (takeRequest_eq_some_iff _ _ _ _).mp h with ⟨-, -, rfl⟩ | ⟨-, -, rest, -, rfl⟩ <;> rfl

/-- Settles O48: a step is an operation on the state without its request, and every operation keeps the invariant. -/
theorem everyStepKeepsTheInvariant : Obligations.EveryStepKeepsTheInvariant := by
  intro s t hs h
  rcases step_cases h with ⟨-, -, rfl⟩ | ⟨src, r, s', i, htake, -, -, -, hw, hexec⟩
  · exact hs
  · refine exec_inv ?_ hw hexec
    rw [takeRequest_frame htake]
    exact inv_of_stores hs rfl rfl rfl rfl rfl

/-- Settles O49: the stores of the state after power-on, and its parameters. -/
theorem resetStateHasTheInvariant : Obligations.ResetStateHasTheInvariant := by
  obtain ⟨hvram, hrom, hpal, hfb⟩ := reset_stores_wf
  exact ⟨hvram, hrom, hpal, hfb, resetParamsT_ok⟩

/-! ## The moves of the surrounding machine (00_scope.md R9, R12) -/

theorem isHostMove_iff (i : Instr) :
    isHostMove i = true ↔ i.format = .port ∨ i = .frame ∨ (∃ p, i = .poweron p) ∨ i = .snapshot := by
  cases i <;> simp [isHostMove, agentOf, Instr.format]

/-- Only `POWERON` carries operands that can break a constraint (R6). -/
theorem wellFormed_of_not_powerOn {i : Instr} (h : isPowerOn i = false) : i.wellFormed = true := by
  cases i
  case poweron p => exact absurd h (by simp [isPowerOn, agentOf])
  all_goals rfl

/-- Settles O53: the agent of each operation, and what the acceptance of a pending request makes of it. -/
theorem outsideStartsItsOwnMovesOnly : Obligations.OutsideStartsItsOwnMovesOnly := by
  refine ⟨isHostMove_iff, fun s r rest i halone hp hd => ⟨fun hblock => ?_, fun hhost hnot hon => ?_⟩⟩
  · refine step_of_refused (takeRequest_pending halone hp) (acceptRequest_eq_error hd ?_)
    simp [objection, hblock]
  · have hstep := (stepRunsTheDecodedOperation s r i hd (wellFormed_of_not_powerOn hnot) (by rw [hon, hnot]; rfl)).1
      hhost halone rest hp
    obtain ⟨t, ht⟩ := everyOperationCompletes i { s with pending := rest }
    obtain ⟨-, -, -, -, -, -, -, -, -, hpending, -⟩ := accessMatrixOfWrites i _ t ht
    exact ⟨t, hstep.trans ht, hpending⟩

/-- What only `POWERON` writes (10_state.md R45). -/
theorem exec_keeps_rom_params {i : Instr} {s t : State} (h : exec i s = .next t) (hnot : isPowerOn i = false) :
    t.rom = s.rom ∧ t.params = s.params ∧ t.poweredOn = s.poweredOn := by
  obtain ⟨hrom, hparams, -, -, -, -, -, -, -, -, -, hon⟩ := accessMatrixOfWrites i s t h
  rw [← isPowerOn_iff, hnot] at hrom hparams hon
  simpa using And.intro hrom (And.intro hparams hon)

/-- A request that decodes to `POWERON` names it. -/
theorem decode_eq_poweron {r : Request} {p : Config.OpenParams} (h : decode r = .ok (.poweron p)) :
    r = .named (.poweron p) := by
  rcases decode_format h with ⟨bytes, rfl⟩ | ⟨hr, -⟩
  · exact absurd h (by simp [decode, Instr.format])
  · exact hr

/-- Settles O54: after power-on no `POWERON` is performed, before it nothing else is. -/
theorem powerOnHappensOnceBeforeAnythingElse : Obligations.PowerOnHappensOnceBeforeAnythingElse := by
  intro s t h
  rcases step_cases h with ⟨-, hp, rfl⟩ | ⟨src, r, s', i, htake, hd, hhost, hphase, hw, hexec⟩
  · exact ⟨fun hon => ⟨hon, rfl, rfl⟩, fun _ => .inl ⟨hp, rfl⟩⟩
  · refine ⟨fun hon => ?on, fun hoff => .inr ?off⟩
    case on =>
      have hnot : isPowerOn i = false := by rw [hon] at hphase; simpa using hphase.symm
      obtain ⟨hrom, hparams, hkept⟩ := exec_keeps_rom_params hexec hnot
      rw [takeRequest_frame htake] at hrom hparams hkept
      exact ⟨hkept.trans hon, hrom, hparams⟩
    case off =>
      have hpow : isPowerOn i = true := by rw [hoff] at hphase; simpa using hphase.symm
      obtain ⟨p, rfl⟩ := (isPowerOn_iff i).mp hpow
      obtain rfl := decode_eq_poweron hd
      have hsrc : src = .outside := of_decide_eq_true hhost.symm
      rcases (takeRequest_eq_some_iff _ _ _ _).mp htake with ⟨hs, -, -⟩ | ⟨-, -, rest, hp, rfl⟩
      · rw [hs] at hsrc; exact Source.noConfusion hsrc
      · refine ⟨p, rest, hp, (wellFormed_poweron_iff p).mp hw, hexec, ?_⟩
        obtain rfl := Host.Outcome.next.inj hexec
        rfl

/-- Settles O55: the effect of a pending move, which is none of the block's own operations and no `POWERON`. -/
theorem outsideMovesWriteTheirColumnsOnly : Obligations.OutsideMovesWriteTheirColumnsOnly := by
  intro s t halone hon h
  rcases step_cases h with ⟨-, hp, rfl⟩ | ⟨src, r, s', i, htake, hd, hhost, hphase, -, hexec⟩
  · exact .inl ⟨hp, rfl⟩
  · rcases (takeRequest_eq_some_iff _ _ _ _).mp htake with ⟨-, hsome, -⟩ | ⟨rfl, -, rest, hp, rfl⟩
    · rw [halone] at hsome; cases hsome
    have hmove : isHostMove i = true := hhost
    have hnot : isPowerOn i = false := by rw [hon] at hphase; simpa using hphase.symm
    obtain ⟨-, -, -, -, -, -, -, -, -, hpending, hnone, -⟩ := accessMatrixOfWrites i _ t hexec
    refine .inr ⟨r, i, hp.trans (congrArg _ hpending.symm), hd, hnone.trans halone, ?_⟩
    cases exec_effect hexec
    case vwrite | ram | lreg0 | lreg1 | pal | advance | pixel | reset => exact absurd hmove (by simp [isHostMove, agentOf])
    case poweron => exact absurd hnot (by simp [isPowerOn, agentOf])
    all_goals simp [setWindow0_eq, setWindow1_eq, setWindow2_eq, dataPortRead_eq, dataPortWrite_eq, vwrite]

/-! ## No hidden state (10_state.md R27, R28) -/

/-- The frame buffer and the last answer replaced. -/
def withBuffer (s : State) (m : Memory) (a : Answer) : State := { s with fb := m, answer := a }

/-- `VWRITE` neither reads nor writes the frame buffer and the last answer. -/
theorem vwrite_withBuffer (s : State) (m : Memory) (a : Answer) (addr : Nat) (v : Byte) :
    vwrite (withBuffer s m a) addr v = withBuffer (vwrite s addr v) m a := by
  rw [vwrite, vwrite]
  cases region addr <;> rfl

/-- Nor does a data port write; it sets the answer to none. -/
theorem dataPortWrite_withBuffer (s : State) (m : Memory) (a : Answer) (k : PtrId) (v : Byte) :
    dataPortWrite (withBuffer s m a) k v = { dataPortWrite s k v with fb := m } := by
  rw [dataPortWrite_eq, dataPortWrite_eq]
  have hptr : (withBuffer s m a).ptr = s.ptr := rfl
  rw [hptr, vwrite_withBuffer]
  rfl

/-- An operation does the same whatever the frame buffer and the last answer are, but for what it leaves in the frame
buffer. -/
theorem exec_withBuffer {i : Instr} {s t : State} (h : exec i s = .next t) (m : Memory) (a : Answer) :
    ∃ m', exec i (withBuffer s m a) = .next { t with fb := m' } := by
  cases i
  case frame => exact ⟨t.fb, (exec_frame_ignores_fb_answer s m a).trans h⟩
  all_goals obtain rfl := Host.Outcome.next.inj h
  case pw3 v => exact ⟨m, congrArg Host.Outcome.next (dataPortWrite_withBuffer s m a 0 v)⟩
  case pw4 v => exact ⟨m, congrArg Host.Outcome.next (dataPortWrite_withBuffer s m a 1 v)⟩
  case vwrite addr v =>
    refine ⟨m, ?_⟩
    rw [exec_vwrite, vwrite_withBuffer]
    rfl
  case vaddrRam o acc | vaddrRom o acc | vaddrLreg0 o acc | vaddrLreg1 o acc | vaddrPal o acc =>
    cases acc <;> exact ⟨m, rfl⟩
  case vaddrUnmapped1 acc | vaddrUnmapped2 acc | vaddrUnmapped3 acc => cases acc <;> exact ⟨m, rfl⟩
  case frameBufferWrite x y c => exact ⟨(writePixel (withBuffer s m a) x.val y.val c).fb, rfl⟩
  case poweron p => exact ⟨p.fbInit, rfl⟩
  all_goals exact ⟨m, rfl⟩

theorem takeRequest_withBuffer {s s' : State} {src : Source} {r : Request} (h : takeRequest s = some (src, r, s'))
    (m : Memory) (a : Answer) : takeRequest (withBuffer s m a) = some (src, r, withBuffer s' m a) := by
  rcases (takeRequest_eq_some_iff _ _ _ _).mp h with ⟨rfl, halone, rfl⟩ | ⟨rfl, halone, rest, hp, rfl⟩
  · exact takeRequest_alone halone
  · exact takeRequest_pending halone hp

/-- A step does the same whatever the frame buffer is, and, if something is requested, whatever the last answer is. -/
theorem step_withBuffer {s t : State} (h : step s = .next t) (m : Memory) (a : Answer)
    (ha : (s.pending ≠ [] ∨ s.alone ≠ none) ∨ a = s.answer) :
    ∃ m', step (withBuffer s m a) = .next { t with fb := m' } := by
  rcases step_cases h with ⟨halone, hp, rfl⟩ | ⟨src, r, s', i, htake, hd, hsrc, hphase, hw, hexec⟩
  · obtain rfl : a = t.answer := ha.resolve_left (by simp [halone, hp])
    exact ⟨m, stepWithNothingRequestedHoldsTheState _ hp halone⟩
  · obtain ⟨m', hm'⟩ := exec_withBuffer hexec m a
    exact ⟨m', (step_of_accepted (takeRequest_withBuffer htake m a) (acceptRequest_eq_ok hd hsrc hphase hw)).trans hm'⟩

/-! ## Runs -/

/-- A run of one step more is a step and the run from there. -/
theorem run_succ_eq_next_iff (M : Host.Core) (n : Nat) (s t : M.State) :
    M.run (n + 1) s = .next t ↔ ∃ u, M.step s = .next u ∧ M.run n u = .next t := by
  rw [Host.Core.run]
  cases M.step s <;> simp

theorem run_succ_of_step {n : Nat} {s u t : State} (h : step s = .next u) (hrun : core.run n u = .next t) :
    core.run (n + 1) s = .next t :=
  (run_succ_eq_next_iff core n s t).mpr ⟨u, h, hrun⟩

theorem exists_step_of_run_succ {n : Nat} {s t : State} (h : core.run (n + 1) s = .next t) :
    ∃ u, step s = .next u ∧ core.run n u = .next t :=
  (run_succ_eq_next_iff core n s t).mp h

/-- With nothing requested a run of any length holds the state. -/
theorem run_of_nothing_requested {s : State} (hp : s.pending = []) (halone : s.alone = none) (n : Nat) :
    core.run n s = .next s := by
  induction n with
  | zero => rfl
  | succ n ih => exact run_succ_of_step (stepWithNothingRequestedHoldsTheState s hp halone) ih

/-- A run does the same whatever the frame buffer is, but for what it leaves in it. -/
theorem run_withFb {n : Nat} {s t : State} (h : core.run n s = .next t) (m : Memory) :
    ∃ m', core.run n { s with fb := m } = .next { t with fb := m' } := by
  induction n generalizing s m with
  | zero =>
    obtain rfl := Host.Outcome.next.inj h
    exact ⟨m, rfl⟩
  | succ n ih =>
    obtain ⟨u, hu, hrun⟩ := exists_step_of_run_succ h
    obtain ⟨m₁, hstep⟩ := step_withBuffer hu m s.answer (.inr rfl)
    obtain ⟨m', hm'⟩ := ih hrun m₁
    exact ⟨m', run_succ_of_step hstep hm'⟩

/-- Settles O51: with nothing performed both states are held; otherwise the first operation sets the answer, and from then on
the runs differ in the frame buffer only. -/
theorem frameBufferFeedsBackIntoNothing : Obligations.FrameBufferFeedsBackIntoNothing := by
  intro n s t m a h
  by_cases hidle : n = 0 ∨ (s.pending = [] ∧ s.alone = none)
  · have hheld (u : State) (hp : u.pending = s.pending) (halone : u.alone = s.alone) : core.run n u = .next u := by
      rcases hidle with rfl | ⟨hp', halone'⟩
      · rfl
      · exact run_of_nothing_requested (hp.trans hp') (halone.trans halone') n
    obtain rfl : s = t := Host.Outcome.next.inj ((hheld s rfl rfl).symm.trans h)
    refine ⟨m, a, hheld _ rfl rfl, fun hn hreq => ?_, fun _ => rfl⟩
    rcases hidle with rfl | ⟨hp, halone⟩
    · exact absurd hn (lt_irrefl 0)
    · simp [hp, halone] at hreq
  · obtain ⟨hn, hreq⟩ := not_or.mp hidle
    obtain ⟨k, rfl⟩ := Nat.exists_eq_succ_of_ne_zero hn
    obtain ⟨u, hu, hrun⟩ := exists_step_of_run_succ h
    obtain ⟨m₁, hstep⟩ := step_withBuffer hu m a (.inl (not_and_or.mp hreq))
    obtain ⟨m', hm'⟩ := run_withFb hrun m₁
    exact ⟨m', t.answer, run_succ_of_step hstep hm', fun _ _ => rfl, fun h => absurd h hidle⟩

end Sys2Proof.Machine
end
